-- ==== Sys2Proof/Word.lean ====
section
/-! DEFINITION. The widths of the FG100ALT-DDS core (00_scope.md R7): commands and responses of 32 bits, PHASE, STEP and
operands of 24 bits, samples of 8 bits. Nothing is signed (R11); bit 0 is least significant (R12). -/

namespace Sys2Proof

/-- A command word or a response word, CMD_WIDTH = 32 (R7). -/
abbrev Word := BitVec 32

/-- PHASE, STEP, an operand field or a data field: ACC_WIDTH = STEP_WIDTH = 24 (R7). -/
abbrev Word24 := BitVec 24

/-- A sample, the register OUT, or a table index: SAMPLE_BITS = INDEX_BITS = 8 (R7). -/
abbrev Byte := BitVec 8

end Sys2Proof
end

