-- ==== Sys2Proof/Config.lean ====
section
/-! DEFINITION. The configuration record of 00_scope.md R8, the test configuration T0 of R10, and the one free value of the
model. CAL_Q is derived, not a field (42_frequency_controller.md R111). -/

namespace Sys2Proof

/-- The waveform ROM as data: the bytes that differ from DEFAULT_WAVE_ROM, by address 256*k + i (20_memory.md R41).
The canonical form and the reading of it are in Machine/WaveRom.lean. DESIGN CHOICE, log 10. -/
abbrev Memory := List Host.Cell

/-- The parameters of an instance, with the values R8 gives as defaults of this hardware; the three without one are OPEN
(R8, 92_eei_decisions.md D13 to D15, D20). The frequencies and the clock are in hertz. -/
structure Config where
  /-- CLOCK_HZ, OPEN -/
  clockHz    : Nat
  /-- TICK_CYCLES, "a parameter with default 9" -/
  tickCycles : Nat := 9
  /-- CAL_FRAC, 16 in this hardware; "a parameter with default 16" (93_implementation_defined.md U4) -/
  calFrac    : Nat := 16
  /-- DDS_MIN_FREQ, OPEN -/
  minFreq    : Nat
  /-- DDS_MAX_FREQ, OPEN -/
  maxFreq    : Nat
  /-- WAVE_ROM, OPEN with the default DEFAULT_WAVE_ROM (the empty list) -/
  waveRom    : Memory := []
deriving DecidableEq, Repr

/-- T0 (R10): the configuration of every vector of 95_test_vectors.md, no default of the hardware. -/
def Config.t0 : Config where
  clockHz    := 30000000
  tickCycles := 9
  calFrac    := 16
  minFreq    := 1
  maxFreq    := 1000000
  waveRom    := []

/-- FREE VALUE (log 5): what `rsp_word` holds while `rsp_valid` = 0, "unspecified" in 20_memory.md R53. Drawn afresh from
the counter `freeCtr` of State each time. -/
opaque Config.freeRspWord : Nat → Word

end Sys2Proof
end

