-- ==== Sys2Proof/Machine/Calibration.lean ====
section
/-! DEFINITION. The fixed-point policy of the frequency conversion (42_frequency_controller.md R111, R112), on exact natural
numbers. -/

namespace Sys2Proof.Machine

/-- CAL_Q: 2^24 * TICK_CYCLES / CLOCK_HZ with CAL_FRAC fraction bits, rounded to nearest, ties upward (R111). -/
def calQ (c : Config) : Nat :=
  (2 * 2 ^ (24 + c.calFrac) * c.tickCycles + c.clockHz) / (2 * c.clockHz)

/-- StepOf(hz): the exact product with CAL_Q, its CAL_FRAC low bits dropped (R112). -/
def stepOf (c : Config) (hz : Nat) : Nat :=
  hz * calQ c / 2 ^ c.calFrac

end Sys2Proof.Machine
end

