-- ==== Sys2Proof/Syntax.lean ====
section
/-! DEFINITION. The twelve commands (30_encoding.md R63), the five waveform kinds (40_waveform_table.md R80) and the four
response codes (30_encoding.md R65). -/

namespace Sys2Proof

/-- The waveform kinds in the source's order (R80); their numbers are `Machine.kindNumber`. -/
inductive WaveKind where
  | sine | triangle | sawtooth | reverseSawtooth | square
deriving DecidableEq, Repr

/-- The response codes (R65); their numbers are `Machine.codeBits`. -/
inductive RspCode where
  | ok | errFreqRange | errWaveKind | errIllegalCmd
deriving DecidableEq, Repr

/-- The commands of opcode_table.json, one constructor per row. An operand is a natural number (R62); that it fits the
24-bit field is `Instr.wf`. -/
inductive Instr where
  /-- NOP, 44_system.md R140 -/
  | nop
  /-- SETF hz, 42_frequency_controller.md R113 -/
  | setf (hz : Nat)
  /-- SELW kind, 40_waveform_table.md R81 -/
  | selw (kind : Nat)
  /-- EN, 43_output_gate.md R126 -/
  | en
  /-- DIS, 43_output_gate.md R127 -/
  | dis
  /-- TGL, 43_output_gate.md R129 -/
  | tgl
  /-- RDEN, 43_output_gate.md R130 -/
  | rden
  /-- RSTPH, 41_dds_engine.md R91 -/
  | rstph
  /-- RDSTEP, 42_frequency_controller.md R114 -/
  | rdstep
  /-- RDPH, 41_dds_engine.md R92 -/
  | rdph
  /-- RDW, 40_waveform_table.md R82 -/
  | rdw
  /-- RDOUT, 41_dds_engine.md R93 -/
  | rdout
deriving DecidableEq, Repr

end Sys2Proof
end

