-- ==== Sys2Proof/Machine/WaveRom.lean ====
section
/-! DEFINITION. The waveform ROM: the numbers of the kinds (40_waveform_table.md R80), the addresses (20_memory.md R41),
DEFAULT_WAVE_ROM (R48 to R50), and reading (R43, R84). The ROM is the machine's whole addressable memory; no event writes
it (R42). -/

namespace Sys2Proof.Machine

/-- The number of a kind (R80). -/
def kindNumber : WaveKind → Nat
  | .sine => 0
  | .triangle => 1
  | .sawtooth => 2
  | .reverseSawtooth => 3
  | .square => 4

/-- The kind with a given number: "A kind is legal exactly when it is in 0..4" (R80). -/
def kindOfNumber? : Nat → Option WaveKind
  | 0 => some .sine
  | 1 => some .triangle
  | 2 => some .sawtooth
  | 3 => some .reverseSawtooth
  | 4 => some .square
  | _ => none

/-- Table 0 of DEFAULT_WAVE_ROM, the normative list of R48, one row of sixteen entries a line. -/
def sineTable : List Nat :=
     [128, 131, 134, 137, 140, 143, 146, 149, 152, 155, 158, 162, 165, 167, 170, 173]
  ++ [176, 179, 182, 185, 188, 190, 193, 196, 198, 201, 203, 206, 208, 211, 213, 215]
  ++ [218, 220, 222, 224, 226, 228, 230, 232, 234, 235, 237, 238, 240, 241, 243, 244]
  ++ [245, 246, 248, 249, 250, 250, 251, 252, 253, 253, 254, 254, 254, 255, 255, 255]
  ++ [255, 255, 255, 255, 254, 254, 254, 253, 253, 252, 251, 250, 250, 249, 248, 246]
  ++ [245, 244, 243, 241, 240, 238, 237, 235, 234, 232, 230, 228, 226, 224, 222, 220]
  ++ [218, 215, 213, 211, 208, 206, 203, 201, 198, 196, 193, 190, 188, 185, 182, 179]
  ++ [176, 173, 170, 167, 165, 162, 158, 155, 152, 149, 146, 143, 140, 137, 134, 131]
  ++ [128, 124, 121, 118, 115, 112, 109, 106, 103, 100, 97, 93, 90, 88, 85, 82]
  ++ [79, 76, 73, 70, 67, 65, 62, 59, 57, 54, 52, 49, 47, 44, 42, 40]
  ++ [37, 35, 33, 31, 29, 27, 25, 23, 21, 20, 18, 17, 15, 14, 12, 11]
  ++ [10, 9, 7, 6, 5, 5, 4, 3, 2, 2, 1, 1, 1, 0, 0, 0]
  ++ [0, 0, 0, 0, 1, 1, 1, 2, 2, 3, 4, 5, 5, 6, 7, 9]
  ++ [10, 11, 12, 14, 15, 17, 18, 20, 21, 23, 25, 27, 29, 31, 33, 35]
  ++ [37, 40, 42, 44, 47, 49, 52, 54, 57, 59, 62, 65, 67, 70, 73, 76]
  ++ [79, 82, 85, 88, 90, 93, 97, 100, 103, 106, 109, 112, 115, 118, 121, 124]

/-- DEFAULT_WAVE_ROM (R48, R49, R50): what an address of the ROM that `Config.waveRom` does not list reads as. -/
def defaultSample (k : WaveKind) (i : Byte) : Byte :=
  match k with
  | .sine => BitVec.ofNat 8 (sineTable.getD i.toNat 0)
  | .triangle => if i.toNat ≤ 127 then BitVec.ofNat 8 (2 * i.toNat) else BitVec.ofNat 8 (511 - 2 * i.toNat)
  | .sawtooth => i
  | .reverseSawtooth => BitVec.ofNat 8 (255 - i.toNat)
  | .square => if i.toNat ≤ 127 then 255#8 else 0#8

/-- The flat address of entry i of table k, {k[2:0], i[7:0]} = 256 * k + i (R41). -/
def romAddr (k : WaveKind) (i : Byte) : Nat := 256 * kindNumber k + i.toNat

/-- RomRead(k, i) = WAVE_ROM(k, i) (00_scope.md R15): total, no side effect (20_memory.md R43). -/
def romRead (m : Memory) (k : WaveKind) (i : Byte) : Byte :=
  (m.lookup (romAddr k i)).getD (defaultSample k i)

/-- One byte of the ROM by its flat address; addresses 1,280 and up hold nothing (R41). -/
def memRead (m : Memory) (a : Nat) : Option Byte :=
  (kindOfNumber? (a / 256)).map fun k => romRead m k (BitVec.ofNat 8 (a % 256))

/-- Does the entry (a, b) belong in the list: a populated address, and not the byte an unlisted address reads as. -/
def cellOk (a : Nat) (b : Byte) : Bool :=
  match kindOfNumber? (a / 256) with
  | some k => b != defaultSample k (BitVec.ofNat 8 (a % 256))
  | none => false

/-- `Memory.wf` from address `lo` up: addresses strictly rising, every entry `cellOk`. -/
def wfFrom (lo : Nat) : Memory → Bool
  | [] => true
  | c :: m => decide (lo ≤ c.1) && cellOk c.1 c.2 && wfFrom (c.1 + 1) m

/-- The canonical form of the ROM's list (log 10). -/
def Memory.wf (m : Memory) : Bool := wfFrom 0 m

/-- The populated addresses from `lo` on, `n` of them, whose byte under `f` is not the default one. -/
def romCells (f : WaveKind → Byte → Byte) (lo : Nat) : Nat → Memory
  | 0 => []
  | n + 1 =>
    match kindOfNumber? (lo / 256) with
    | some k =>
      let b := f k (BitVec.ofNat 8 (lo % 256))
      if b = defaultSample k (BitVec.ofNat 8 (lo % 256)) then romCells f (lo + 1) n
      else (lo, b) :: romCells f (lo + 1) n
    | none => romCells f (lo + 1) n

/-- The canonical list of an arbitrary WAVE_ROM, "total function from kind 0..4 and index 0..255 to a sample" (00_scope.md
R8): how an instance's tables are put into its configuration at build time. -/
def romOfTable (f : WaveKind → Byte → Byte) : Memory := romCells f 0 1280

/-- Table k as a list of its 256 entries in order. -/
def romTable (m : Memory) (k : WaveKind) : List Byte :=
  (List.range 256).map fun i => romRead m k (BitVec.ofNat 8 i)

end Sys2Proof.Machine
end

