-- ==== Sys2Proof/WellFormed.lean ====
section
/-! DEFINITION. Well-formedness: of a command (its operand fits the field, 30_encoding.md R61, R72) and of a configuration
(WF1 to WF7 of 00_scope.md R9). -/

namespace Sys2Proof

/-- The operand fits the 24-bit field; the assembler "refuses an operand above 16,777,215" (R72). Ranges the hardware
checks are not checked here. -/
def Instr.wf : Instr → Bool
  | .setf hz => decide (hz < 2 ^ 24)
  | .selw kind => decide (kind < 2 ^ 24)
  | .nop => true
  | .en => true
  | .dis => true
  | .tgl => true
  | .rden => true
  | .rstph => true
  | .rdstep => true
  | .rdph => true
  | .rdw => true
  | .rdout => true

/-- Exactly two distinct members. -/
def twoLevels : List Byte → Bool
  | [] => false
  | a :: l =>
    match l.find? (fun x => x != a) with
    | none => false
    | some b => l.all (fun x => x == a || x == b)

namespace Config

/-- WF1: CLOCK_HZ >= 1 and TICK_CYCLES >= 1. -/
def wf1 (c : Config) : Bool := decide (1 ≤ c.clockHz) && decide (1 ≤ c.tickCycles)

/-- WF2: DDS_MIN_FREQ <= DDS_MAX_FREQ. -/
def wf2 (c : Config) : Bool := decide (c.minFreq ≤ c.maxFreq)

/-- WF3: DDS_MAX_FREQ fits the operand field. -/
def wf3 (c : Config) : Bool := decide (c.maxFreq ≤ 2 ^ 24 - 1)

/-- WF4: every legal step fits STEP. -/
def wf4 (c : Config) : Bool := decide (Machine.stepOf c c.maxFreq ≤ 2 ^ 24 - 1)

/-- WF5: the calibration constant is at least 1.0. -/
def wf5 (c : Config) : Bool := decide (2 ^ c.calFrac ≤ Machine.calQ c)

/-- WF6: WAVE_ROM is defined on all 1,280 addresses and only there; on this representation, the canonical form. -/
def wf6 (c : Config) : Bool := Machine.Memory.wf c.waveRom

/-- WF7: the square table has exactly two levels. -/
def wf7 (c : Config) : Bool := twoLevels (Machine.romTable c.waveRom .square)

/-- A configuration is well formed when WF1 to WF7 hold (R9). -/
def wf (c : Config) : Bool :=
  c.wf1 && c.wf2 && c.wf3 && c.wf4 && c.wf5 && c.wf6 && c.wf7

end Config

/-- A configuration "is the raw record plus a proof of this check" (R9); an ill-formed one "is not this hardware"
(93_implementation_defined.md U23). Log 3. -/
abbrev HwConfig := { c : Config // c.wf = true }

/-- "T0 is well formed" (R10). -/
theorem Config.t0_wf : Config.t0.wf = true := by decide +kernel

/-- T0 with its proof. -/
def HwConfig.t0 : HwConfig := ⟨Config.t0, Config.t0_wf⟩

end Sys2Proof
end

