-- ==== Sys2Proof/Decode.lean ====
section
/-! DEFINITION. The decoder, total on all 2^32 words (30_encoding.md R70), the encoder, and the opcode table (R63).
A command is presented in parallel as one word, so there is no byte order (20_memory.md R44). -/

namespace Sys2Proof

/-- Why a word is an illegal command (R66, R67). Both are answered alike (44_system.md R141). -/
inductive IllReason where
  /-- opcode 0x0C to 0xFF (R66) -/
  | reservedOpcode (opcode : Byte)
  /-- one of the ten opcodes without operand, with a non-zero operand field (R67) -/
  | operandMustBeZero (opcode : Byte) (operand : Word24)
deriving DecidableEq, Repr

/-- Bits 31:24 of a command word (R61). -/
def opcodeField (w : Word) : Byte := w.extractLsb' 24 8

/-- Bits 23:0 of a command word (R61, R62). -/
def operandField (w : Word) : Word24 := w.extractLsb' 0 24

/-- Decode (R70). It depends on the word alone (R69). -/
def decode (w : Word) : Except IllReason Instr :=
  let op := (opcodeField w).toNat
  let arg := (operandField w).toNat
  if op = 0x01 then .ok (.setf arg)
  else if op = 0x02 then .ok (.selw arg)
  else if 0x0C ≤ op then .error (.reservedOpcode (opcodeField w))
  else if arg ≠ 0 then .error (.operandMustBeZero (opcodeField w) (operandField w))
  else match op with
    | 0x00 => .ok .nop
    | 0x03 => .ok .en
    | 0x04 => .ok .dis
    | 0x05 => .ok .tgl
    | 0x06 => .ok .rden
    | 0x07 => .ok .rstph
    | 0x08 => .ok .rdstep
    | 0x09 => .ok .rdph
    | 0x0A => .ok .rdw
    | 0x0B => .ok .rdout
    | _ => .error (.reservedOpcode (opcodeField w))

/-- The opcode of a command (R63). -/
def opcodeOf : Instr → Byte
  | .nop => 0x00#8
  | .setf _ => 0x01#8
  | .selw _ => 0x02#8
  | .en => 0x03#8
  | .dis => 0x04#8
  | .tgl => 0x05#8
  | .rden => 0x06#8
  | .rstph => 0x07#8
  | .rdstep => 0x08#8
  | .rdph => 0x09#8
  | .rdw => 0x0A#8
  | .rdout => 0x0B#8

/-- The operand of a command, 0 for the ten commands that take none (R67). -/
def operandOf : Instr → Nat
  | .setf hz => hz
  | .selw kind => kind
  | .nop => 0
  | .en => 0
  | .dis => 0
  | .tgl => 0
  | .rden => 0
  | .rstph => 0
  | .rdstep => 0
  | .rdph => 0
  | .rdw => 0
  | .rdout => 0

/-- Encode (R70): the opcode over the operand (R61). -/
def encode (i : Instr) : Word := opcodeOf i ++ BitVec.ofNat 24 (operandOf i)

/-- The mnemonic of a command as opcode_table.json spells it. -/
def mnemonicOf : Instr → String
  | .nop => "NOP"
  | .setf _ => "SETF"
  | .selw _ => "SELW"
  | .en => "EN"
  | .dis => "DIS"
  | .tgl => "TGL"
  | .rden => "RDEN"
  | .rstph => "RSTPH"
  | .rdstep => "RDSTEP"
  | .rdph => "RDPH"
  | .rdw => "RDW"
  | .rdout => "RDOUT"

/-- A row of the opcode map (R63): a word w is the row's command exactly when w & mask = value. -/
structure OpcodeRow where
  mnemonic : String
  mask     : Word
  value    : Word
deriving DecidableEq, Repr

/-- The twelve rows of R63, the masks and match values as the table prints them. -/
def opcodeTable : List OpcodeRow :=
  [ ⟨"NOP",    0xFFFFFFFF#32, 0x00000000#32⟩,
    ⟨"SETF",   0xFF000000#32, 0x01000000#32⟩,
    ⟨"SELW",   0xFF000000#32, 0x02000000#32⟩,
    ⟨"EN",     0xFFFFFFFF#32, 0x03000000#32⟩,
    ⟨"DIS",    0xFFFFFFFF#32, 0x04000000#32⟩,
    ⟨"TGL",    0xFFFFFFFF#32, 0x05000000#32⟩,
    ⟨"RDEN",   0xFFFFFFFF#32, 0x06000000#32⟩,
    ⟨"RSTPH",  0xFFFFFFFF#32, 0x07000000#32⟩,
    ⟨"RDSTEP", 0xFFFFFFFF#32, 0x08000000#32⟩,
    ⟨"RDPH",   0xFFFFFFFF#32, 0x09000000#32⟩,
    ⟨"RDW",    0xFFFFFFFF#32, 0x0A000000#32⟩,
    ⟨"RDOUT",  0xFFFFFFFF#32, 0x0B000000#32⟩ ]

/-- The command word whose low `nbits` bits are those of `w` and whose other bits are 0, as it stands on `cmd_word`. -/
def tableWord (nbits w : Nat) : Word := BitVec.ofNat 32 (w % 2 ^ nbits)

/-- The command the decoder reads from a word numbered as opcode_table.json numbers it. -/
def decodeTableWord (nbits w : Nat) : Option Instr :=
  match decode (tableWord nbits w) with
  | .ok i => some i
  | .error _ => none

end Sys2Proof
end

