-- ==== Sys2Proof/Machine/State.lean ====
section
/-! DEFINITION. The state of the clocked block (10_state.md R20, R27, R31), the outcomes, and the state after reset (R34).
It follows the edge level of 20_memory.md R54, so the prescaler and the output registers are here (log 1). -/

namespace Sys2Proof.Machine

/-- Faults: none. "Fault: none; no event of the hardware faults" (60_exceptions.md R167, 41_dds_engine.md R103). Safe: there
is nothing to raise. -/
inductive Fault where
deriving DecidableEq, Repr

/-- Refusals. -/
inductive Refusal where
  /-- A command whose meaning the model does not have. Raised by no arm of `exec` in this model; safe. -/
  | notModelled (mnemonic : String)
deriving DecidableEq, Repr

/-- What the host drives on the input pins at one rising edge of `clk` (20_memory.md R53). -/
structure PinInputs where
  rst      : Bool
  cmdValid : Bool
  /-- ignored when `cmdValid` is false (R53, 93 U11) -/
  cmdWord  : Word
deriving DecidableEq, Repr

/-- The whole state: the five registers of R20, the clocked hardware's registers of R27 and R31, the instance's constants
(R32), the observations (R32), and the model's own `inputs` and `freeCtr`. -/
structure State where
  /-- the configuration of the instance, written by no event (R32, log 3) -/
  cfg       : HwConfig
  /-- PHASE, the phase accumulator (R21) -/
  phase     : Word24
  /-- STEP, the installed step (R22) -/
  step      : Word24
  /-- WSEL, the selected kind, always in 0..4 (R25, log 7) -/
  wsel      : WaveKind
  /-- EN, the Output Gate flag; Running exactly when true (R26, 43_output_gate.md R125) -/
  en        : Bool
  /-- OUT, the last sample written to the output port (R23) -/
  out       : Byte
  /-- TCNT, the prescaler (R27, log 8) -/
  tcnt      : Nat
  /-- the pin register `rsp_valid` (R31) -/
  rspValid  : Bool
  /-- the pin register `rsp_word` (R31); unspecified while `rspValid` is false (20_memory.md R53, log 5) -/
  rspWord   : Word
  /-- the pin register `out_we` (R31, 20_memory.md R51) -/
  outWe     : Bool
  /-- the output trace: every Emit(v), oldest first (20_memory.md R51, log 9) -/
  trace     : List Byte
  /-- every response word, oldest first (R32, log 9) -/
  responses : List Word
  /-- the pin values of the coming edges, next first; when none is left the host presents nothing (log 2) -/
  inputs    : List PinInputs
  /-- how many free values have been drawn (the model's own, log 5) -/
  freeCtr   : Nat
deriving DecidableEq, Repr

/-- The state right after reset (R34, 70_reset_and_hazards.md R176) of an instance with configuration `c`. DESIGN CHOICE:
`rspWord` 0 and `freeCtr` 0 (log 6), `inputs` empty (log 2). -/
def State.resetOf (c : HwConfig) : State where
  cfg       := c
  phase     := 0#24
  step      := 0#24
  wsel      := .sine
  en        := false
  out       := 0#8
  tcnt      := 0
  rspValid  := false
  rspWord   := 0#32
  outWe     := false
  trace     := []
  responses := []
  inputs    := []
  freeCtr   := 0

/-- The state right after reset, of the instance T0 (DESIGN CHOICE, log 4). -/
def State.reset : State := State.resetOf HwConfig.t0

end Sys2Proof.Machine
end

