-- ==== Sys2Proof/Machine/Flags.lean ====
section
/-! DEFINITION. The one flag of the block, EN, and the Running/Halted state machine it is (10_state.md R26,
43_output_gate.md R125). There are no condition codes, no carry and no overflow flag. -/

namespace Sys2Proof.Machine

/-- The two states of the engine (43_output_gate.md R125). -/
inductive GateState where
  | running | halted
deriving DecidableEq, Repr

/-- "Running exactly when EN = 1, Halted exactly when EN = 0" (R125). -/
def gateState (s : State) : GateState := if s.en then .running else .halted

/-- 1 - EN (43_output_gate.md R129). -/
def toggled (e : Bool) : Bool := !e

end Sys2Proof.Machine
end

