-- ==== Sys2Proof/Machine/Operands.lean ====
section
/-! DEFINITION. Operand checks and the bit fields the rules read: the range check of SETF, the index of the engine, and the
zero-extensions of response data (00_scope.md R12, R13; 30_encoding.md R62, R65, R74). -/

namespace Sys2Proof.Machine

/-- `DDS_MIN_FREQ <= hz <= DDS_MAX_FREQ`, both bounds inclusive, on hz and never on the step (42_frequency_controller.md
R110, R113). -/
def freqInRange (c : Config) (hz : Nat) : Bool := decide (c.minFreq ≤ hz) && decide (hz ≤ c.maxFreq)

/-- high_byte(p) = p[23:16] (00_scope.md R12, 41_dds_engine.md R95). -/
def highByte (p : Word24) : Byte := p.extractLsb' 16 8

/-- (PHASE + STEP) mod 2^24: a 24-bit adder whose carry out is dropped (41_dds_engine.md R94). -/
def advance (phase step : Word24) : Word24 := phase + step

/-- zext_24(EN) (43_output_gate.md R130). -/
def enData (e : Bool) : Word24 := if e then 1#24 else 0#24

/-- zext_24(WSEL) (40_waveform_table.md R82). -/
def wselData (k : WaveKind) : Word24 := BitVec.ofNat 24 (kindNumber k)

/-- zext_24(OUT) (41_dds_engine.md R93). -/
def outData (v : Byte) : Word24 := v.setWidth 24

/-- The number of a response code (30_encoding.md R65). -/
def codeBits : RspCode → Byte
  | .ok => 0x00#8
  | .errFreqRange => 0x01#8
  | .errWaveKind => 0x02#8
  | .errIllegalCmd => 0x03#8

/-- The response word {code[7:0], data[23:0]} (30_encoding.md R64). -/
def rspOf (code : RspCode) (data : Word24) : Word := codeBits code ++ data

end Sys2Proof.Machine
end

