-- ==== Sys2Proof/Machine/Ops.lean ====
section
/-! DEFINITION. The named operations over the state: the register writes, `respond` (00_scope.md R16, 30_encoding.md R64),
the error response that stands where other machines take an exception (60_exceptions.md R150, R152, R157), PortWrite
(00_scope.md R15, 20_memory.md R51), the Reset event (10_state.md R34), and the pins. -/

namespace Sys2Proof.Machine

/-- PHASE <- v. -/
def setPhase (v : Word24) (s : State) : State := { s with phase := v }

/-- STEP <- v, all 24 bits at once (42_frequency_controller.md R115). -/
def setStep (v : Word24) (s : State) : State := { s with step := v }

/-- WSEL <- k. -/
def setWsel (k : WaveKind) (s : State) : State := { s with wsel := k }

/-- EN <- e. -/
def setEn (e : Bool) (s : State) : State := { s with en := e }

/-- respond(code, data): the response word shows on `rsp_word` in the next cycle with `rsp_valid` = 1 (20_memory.md R53,
R54), and joins the sequence of responses. -/
def respond (code : RspCode) (data : Word24) (s : State) : State :=
  { s with rspValid := true, rspWord := rspOf code data, responses := s.responses ++ [rspOf code data] }

/-- An error response: a non-zero code, data 0, and no register written (60_exceptions.md R151, R152). No state is saved,
no mode is switched, nothing has to be undone afterwards (R157, R158). -/
def respondError (code : RspCode) (s : State) : State := respond code 0#24 s

/-- PortWrite(v): OUT <- v, the strobe `out_we` for the next cycle, and Emit(v) appended to the trace (20_memory.md R51). -/
def portWrite (v : Byte) (s : State) : State :=
  { s with out := v, outWe := true, trace := s.trace ++ [v] }

/-- `rsp_valid` <- 0; `rsp_word` is then unspecified (20_memory.md R53): a free value (log 5). -/
def noResponse (s : State) : State :=
  { s with rspValid := false, rspWord := Config.freeRspWord s.freeCtr, freeCtr := s.freeCtr + 1 }

/-- The event Reset (10_state.md R34). It emits nothing and appends nothing to the trace; the configuration and the host's
coming inputs are not the block's to reset. -/
def doReset (s : State) : State :=
  noResponse { s with
    phase := 0#24, step := 0#24, wsel := .sine, en := false, out := 0#8, tcnt := 0, outWe := false }

/-- The pins while the host presents nothing: `rst` = 0, `cmd_valid` = 0 (60_exceptions.md R166). -/
def idlePins : PinInputs := { rst := false, cmdValid := false, cmdWord := 0#32 }

/-- What the input pins carry at the coming edge. -/
def pinsNow (s : State) : PinInputs := s.inputs.headD idlePins

/-- The coming edge's inputs are used up. -/
def popInputs (s : State) : State := { s with inputs := s.inputs.tail }

/-- The pins while the host presents the command word `w` (20_memory.md R53). -/
def presentPins (w : Word) : PinInputs := { rst := false, cmdValid := true, cmdWord := w }

/-- The output pins (20_memory.md R53). -/
structure OutputPins where
  rspValid : Bool
  rspWord  : Word
  outData  : Byte
  outWe    : Bool
  enQ      : Bool
deriving DecidableEq, Repr

/-- What the host sees in the cycle that begins with this state: `out_data` is OUT (20_memory.md R51) and `en_q` is EN
(43_output_gate.md R132) at all times. -/
def outPins (s : State) : OutputPins :=
  { rspValid := s.rspValid, rspWord := s.rspWord, outData := s.out, outWe := s.outWe, enQ := s.en }

/-- Go on from a next state; keep a stop. -/
def andThen (o : Host.Outcome State Fault Refusal) (f : State → Host.Outcome State Fault Refusal) :
    Host.Outcome State Fault Refusal :=
  match o with
  | .next s => f s
  | .fault r => .fault r
  | .refused r => .refused r

end Sys2Proof.Machine
end

