-- ==== Sys2Proof/Machine/Engine.lean ====
section
/-! DEFINITION. The DDS engine: the Tick and the commands RSTPH, RDPH, RDOUT (41_dds_engine.md). -/

namespace Sys2Proof.Machine

/-- The Tick (R90): nothing at all when EN = 0; otherwise advance, index with the advanced PHASE, look up, emit. Total, as
R103 asks. -/
def tick (s : State) : State :=
  if s.en then
    let p1 := advance s.phase s.step
    portWrite (romRead s.cfg.val.waveRom s.wsel (highByte p1)) (setPhase p1 s)
  else s

/-- RSTPH (R91): PHASE alone is written; nothing is emitted. -/
def execRstph (s : State) : Host.Outcome State Fault Refusal :=
  .next (respond .ok 0#24 (setPhase 0#24 s))

/-- RDPH (R92). -/
def execRdph (s : State) : Host.Outcome State Fault Refusal :=
  .next (respond .ok s.phase s)

/-- RDOUT (R93). -/
def execRdout (s : State) : Host.Outcome State Fault Refusal :=
  .next (respond .ok (outData s.out) s)

end Sys2Proof.Machine
end

