-- ==== Sys2Proof/Machine/Frequency.lean ====
section
/-! DEFINITION. The frequency controller's commands SETF and RDSTEP (42_frequency_controller.md). -/

namespace Sys2Proof.Machine

/-- SETF hz (R113): the range check on hz, then the conversion, then one write of STEP. By WF4 the step of an accepted hz
fits 24 bits (R112, R119). -/
def execSetf (hz : Nat) (s : State) : Host.Outcome State Fault Refusal :=
  if freqInRange s.cfg.val hz then
    let v : Word24 := BitVec.ofNat 24 (stepOf s.cfg.val hz)
    .next (respond .ok v (setStep v s))
  else .next (respondError .errFreqRange s)

/-- RDSTEP (R114). -/
def execRdstep (s : State) : Host.Outcome State Fault Refusal :=
  .next (respond .ok s.step s)

end Sys2Proof.Machine
end

