-- ==== Sys2Proof/Machine/Gate.lean ====
section
/-! DEFINITION. The output gate's commands EN, DIS, TGL, RDEN (43_output_gate.md). -/

namespace Sys2Proof.Machine

/-- EN (R126). -/
def execEn (s : State) : Host.Outcome State Fault Refusal :=
  .next (respond .ok (enData true) (setEn true s))

/-- DIS (R127). -/
def execDis (s : State) : Host.Outcome State Fault Refusal :=
  .next (respond .ok (enData false) (setEn false s))

/-- TGL (R129): one atomic read and write of EN; the response carries the new value. -/
def execTgl (s : State) : Host.Outcome State Fault Refusal :=
  let e := toggled s.en
  .next (respond .ok (enData e) (setEn e s))

/-- RDEN (R130). -/
def execRden (s : State) : Host.Outcome State Fault Refusal :=
  .next (respond .ok (enData s.en) s)

end Sys2Proof.Machine
end

