-- ==== Sys2Proof/Machine/System.lean ====
section
/-! DEFINITION. NOP and the illegal command ILL (44_system.md). -/

namespace Sys2Proof.Machine

/-- NOP (R140): a response and nothing else. -/
def execNop (s : State) : Host.Outcome State Fault Refusal :=
  .next (respond .ok 0#24 s)

/-- ILL (R141): what the block does with every word that decodes to no command. -/
def execIll (s : State) : Host.Outcome State Fault Refusal :=
  .next (respondError .errIllegalCmd s)

end Sys2Proof.Machine
end

