-- ==== Sys2Proof/Machine/Waveform.lean ====
section
/-! DEFINITION. The waveform table multiplexer's commands SELW and RDW (40_waveform_table.md). -/

namespace Sys2Proof.Machine

/-- SELW kind (R81): the check is on the whole operand; on success WSEL alone is written. -/
def execSelw (kind : Nat) (s : State) : Host.Outcome State Fault Refusal :=
  match kindOfNumber? kind with
  | some k => .next (respond .ok (BitVec.ofNat 24 kind) (setWsel k s))
  | none => .next (respondError .errWaveKind s)

/-- RDW (R82). -/
def execRdw (s : State) : Host.Outcome State Fault Refusal :=
  .next (respond .ok (wselData s.wsel) s)

end Sys2Proof.Machine
end

