-- ==== Sys2Proof/Machine/Dispatch.lean ====
section
/-! DEFINITION. What each command does: one arm per constructor (44_system.md R143). -/

namespace Sys2Proof.Machine

def exec (i : Instr) (s : State) : Host.Outcome State Fault Refusal :=
  match i with
  | .nop => Sys2Proof.Machine.execNop s
  | .setf hz => Sys2Proof.Machine.execSetf hz s
  | .selw kind => Sys2Proof.Machine.execSelw kind s
  | .en => Sys2Proof.Machine.execEn s
  | .dis => Sys2Proof.Machine.execDis s
  | .tgl => Sys2Proof.Machine.execTgl s
  | .rden => Sys2Proof.Machine.execRden s
  | .rstph => Sys2Proof.Machine.execRstph s
  | .rdstep => Sys2Proof.Machine.execRdstep s
  | .rdph => Sys2Proof.Machine.execRdph s
  | .rdw => Sys2Proof.Machine.execRdw s
  | .rdout => Sys2Proof.Machine.execRdout s

end Sys2Proof.Machine
end

