-- ==== Sys2Proof/Machine/Edge.lean ====
section
/-! DEFINITION. The events of a run (00_scope.md R17) and the rule that turns clock edges into them (20_memory.md R54). -/

namespace Sys2Proof.Machine

/-- The event Cmd(w): decode, then the command's meaning; a word that is no command is ILL (30_encoding.md R70, 44_system.md
R141, R143). -/
def acceptCommand (w : Word) (s : State) : Host.Outcome State Fault Refusal :=
  match decode w with
  | .ok i => exec i s
  | .error _ => execIll s

/-- The first half of an edge with `rst` = 0 (R54): the command, if one is presented, and the response registers. -/
def commandPart (p : PinInputs) (s : State) : Host.Outcome State Fault Refusal :=
  if p.cmdValid then acceptCommand p.cmdWord s else .next (noResponse s)

/-- Does a Tick happen on this edge: `TCNT = TICK_CYCLES - 1` (R54). -/
def tickDue (s : State) : Bool := s.tcnt == s.cfg.val.tickCycles - 1

/-- The second half of an edge with `rst` = 0 (R54): the prescaler, and the Tick on its wrap. `out_we` is 0 after the edge
unless that Tick emits. -/
def tickPart (s : State) : State :=
  if tickDue s then tick { s with tcnt := 0, outWe := false }
  else { s with tcnt := s.tcnt + 1, outWe := false }

/-- One rising edge of `clk` (R54): Reset alone, or else command before Tick. -/
def risingEdge (s : State) : Host.Outcome State Fault Refusal :=
  let p := pinsNow s
  let s0 := popInputs s
  if p.rst then .next (doReset s0)
  else andThen (commandPart p s0) fun s1 => .next (tickPart s1)

/-- The events of a run (00_scope.md R17). Tick and Reset have no encoding (30_encoding.md R71). -/
inductive Event where
  | reset
  | cmd (w : Word)
  | tick
deriving DecidableEq, Repr

/-- What one event does. At this level the interleaving of commands and Ticks is free (20_memory.md R55). -/
def applyEvent (e : Event) (s : State) : Host.Outcome State Fault Refusal :=
  match e with
  | .reset => .next (doReset s)
  | .cmd w => acceptCommand w s
  | .tick => .next (tick s)

/-- A finite run of events: each reads the state left by the event before it (R17). -/
def runEvents : List Event → State → Host.Outcome State Fault Refusal
  | [], s => .next s
  | e :: es, s => andThen (applyEvent e s) (runEvents es)

/-- The events of one edge with pins `p` and prescaler `t` (R54). -/
def edgeEvents (tickCycles t : Nat) (p : PinInputs) : List Event :=
  if p.rst then [.reset]
  else (if p.cmdValid then [.cmd p.cmdWord] else []) ++ (if t = tickCycles - 1 then [.tick] else [])

/-- TCNT after one edge (R54). -/
def nextTcnt (tickCycles t : Nat) (p : PinInputs) : Nat :=
  if p.rst then 0 else if t = tickCycles - 1 then 0 else t + 1

/-- The events of the next `n` edges, from the prescaler and the host's pins alone: "the events so produced, taken edge
after edge, are the run" (R54). -/
def eventsOfEdges (tickCycles : Nat) : Nat → Nat → List PinInputs → List Event
  | 0, _, _ => []
  | n + 1, t, ps =>
    edgeEvents tickCycles t (ps.headD idlePins)
      ++ eventsOfEdges tickCycles n (nextTcnt tickCycles t (ps.headD idlePins)) ps.tail

end Sys2Proof.Machine
end

