-- ==== Sys2Proof/Machine/Step.lean ====
section
/-! DEFINITION. One step of the machine is one rising edge of `clk` (20_memory.md R54, log 1). -/

namespace Sys2Proof.Machine

/-- One step: one rising edge. -/
def step (s : State) : Host.Outcome State Fault Refusal := risingEdge s

/-- s with the command word presented on the pins at the next edge, in place of what they would carry there (log 16).
The block stores no program (10_state.md R29). -/
def State.withFetchWord (s : State) (nbits w : Nat) : State :=
  { s with inputs := presentPins (tableWord nbits w) :: s.inputs.tail }

end Sys2Proof.Machine
end

