-- ==== Sys2Proof/Machine/Assembler.lean ====
section
/-! DEFINITION. The assembler's lines, pseudo-instructions and script directives (30_encoding.md R72, R73), as functions
from text, a list of characters, to events. Spelling points the rules leave open: log 14. No step uses this file. -/

namespace Sys2Proof.Machine

/-- Why the assembler refuses a line. -/
inductive AsmError where
  /-- no mnemonic, pseudo-instruction or directive of R63, R73 -/
  | unknownMnemonic
  /-- SETF, SELW or .word without its operand -/
  | operandMissing
  /-- "an operand on a command that takes none" (R72) -/
  | operandNotTaken
  /-- the operand is neither a number nor, for SELW, a kind name -/
  | operandUnreadable
  /-- "an operand above 16,777,215" (R72); for .word, a word above 32 bits -/
  | operandTooLarge
  /-- TICK 0; R73 asks n >= 1 -/
  | noTicks
  /-- more than one operand on a line -/
  | tooManyOperands
deriving DecidableEq, Repr

/-- The pieces of a text between separators, empty ones dropped; `cur` is the piece being read. -/
def pieces (sep : Char → Bool) : List Char → List Char → List (List Char)
  | [], cur => if cur.isEmpty then [] else [cur]
  | c :: cs, cur =>
    if sep c then (if cur.isEmpty then [] else [cur]) ++ pieces sep cs []
    else pieces sep cs (cur ++ [c])

/-- The value of a digit in base 10 or 16. -/
def digitValue (base : Nat) (c : Char) : Option Nat :=
  let n := c.toNat
  let v :=
    if 48 ≤ n ∧ n ≤ 57 then some (n - 48)
    else if 65 ≤ n ∧ n ≤ 70 then some (n - 55)
    else if 97 ≤ n ∧ n ≤ 102 then some (n - 87)
    else none
  v.bind fun d => if d < base then some d else none

/-- The number a run of digits spells, after `acc`. -/
def digitsValue (base : Nat) : List Char → Nat → Option Nat
  | [], acc => some acc
  | c :: cs, acc => (digitValue base c).bind fun d => digitsValue base cs (acc * base + d)

/-- "An operand is a decimal number (commas not allowed) or a hexadecimal number with `0x`" (R72). -/
def readNumber : List Char → Option Nat
  | '0' :: 'x' :: d :: ds => digitsValue 16 (d :: ds) 0
  | d :: ds => digitsValue 10 (d :: ds) 0
  | [] => none

/-- The kind names of R72. -/
def kindNames : List (List Char × Nat) :=
  [ (['S','I','N','E'], 0), (['T','R','I'], 1), (['S','A','W'], 2), (['R','S','A','W'], 3),
    (['S','Q','U','A','R','E'], 4) ]

/-- A number, or for SELW a kind name (R72). -/
def readOperand (names : List (List Char × Nat)) (t : List Char) : Option Nat :=
  (names.lookup t).orElse fun _ => readNumber t

/-- The lines without operand: ten commands, MUTE, UNMUTE, RESET and TICK alone (R63, R73). -/
def plainLines : List (List Char × Event) :=
  [ (['N','O','P'], .cmd (encode .nop)), (['E','N'], .cmd (encode .en)), (['D','I','S'], .cmd (encode .dis)),
    (['T','G','L'], .cmd (encode .tgl)), (['R','D','E','N'], .cmd (encode .rden)),
    (['R','S','T','P','H'], .cmd (encode .rstph)), (['R','D','S','T','E','P'], .cmd (encode .rdstep)),
    (['R','D','P','H'], .cmd (encode .rdph)), (['R','D','W'], .cmd (encode .rdw)),
    (['R','D','O','U','T'], .cmd (encode .rdout)), (['M','U','T','E'], .cmd (encode .dis)),
    (['U','N','M','U','T','E'], .cmd (encode .en)), (['R','E','S','E','T'], .reset), (['T','I','C','K'], .tick) ]

/-- The operand, if it is readable and below `bound`. -/
def operandBelow (bound : Nat) (names : List (List Char × Nat)) (t : List Char) : Except AsmError Nat :=
  match readOperand names t with
  | none => .error .operandUnreadable
  | some v => if v < bound then .ok v else .error .operandTooLarge

/-- The lines with one operand: SETF, SELW, .word, TICK n (R72, R73). -/
def operandLine (m t : List Char) : Except AsmError (List Event) :=
  if m = ['S','E','T','F'] then (operandBelow (2 ^ 24) [] t).map fun v => [.cmd (encode (.setf v))]
  else if m = ['S','E','L','W'] then (operandBelow (2 ^ 24) kindNames t).map fun v => [.cmd (encode (.selw v))]
  else if m = ['.','w','o','r','d'] then (operandBelow (2 ^ 32) [] t).map fun v => [.cmd (BitVec.ofNat 32 v)]
  else if m = ['T','I','C','K'] then
    match readNumber t with
    | none => .error .operandUnreadable
    | some 0 => .error .noTicks
    | some (n + 1) => .ok (List.replicate (n + 1) .tick)
  else if (plainLines.lookup m).isSome then .error .operandNotTaken
  else .error .unknownMnemonic

/-- One line to its events; "a `;` starts a comment to the end of the line" (R72). -/
def assembleLine (line : List Char) : Except AsmError (List Event) :=
  match pieces (fun c => c == ' ' || c == '\t') (line.takeWhile fun c => c != ';') [] with
  | [] => .ok []
  | [m] =>
    match plainLines.lookup m with
    | some e => .ok [e]
    | none =>
      if m = ['S','E','T','F'] ∨ m = ['S','E','L','W'] ∨ m = ['.','w','o','r','d'] then .error .operandMissing
      else .error .unknownMnemonic
  | [m, t] => operandLine m t
  | _ => .error .tooManyOperands

/-- A list of lines to the events of all of them, in order. -/
def assembleLines : List (List Char) → Except AsmError (List Event)
  | [] => .ok []
  | l :: ls =>
    match assembleLine l with
    | .error e => .error e
    | .ok es => (assembleLines ls).map fun rest => es ++ rest

/-- A script is "read top to bottom as the event sequence" of 00_scope.md R17 (R73). -/
def assembleScript (text : List Char) : Except AsmError (List Event) :=
  assembleLines (pieces (fun c => c == '\n') text [])

/-- The character of a hexadecimal digit. -/
def hexDigit (d : Nat) : Char := Char.ofNat (if d < 10 then 48 + d else 55 + d)

/-- An operand written as `0x` and six hexadecimal digits. -/
def writeOperand (n : Nat) : List Char :=
  '0' :: 'x' :: [5, 4, 3, 2, 1, 0].map fun p => hexDigit (n / 16 ^ p % 16)

/-- A command written as a line of R72. -/
def writeLine : Instr → List Char
  | .nop => ['N','O','P']
  | .setf hz => ['S','E','T','F',' '] ++ writeOperand hz
  | .selw kind => ['S','E','L','W',' '] ++ writeOperand kind
  | .en => ['E','N']
  | .dis => ['D','I','S']
  | .tgl => ['T','G','L']
  | .rden => ['R','D','E','N']
  | .rstph => ['R','S','T','P','H']
  | .rdstep => ['R','D','S','T','E','P']
  | .rdph => ['R','D','P','H']
  | .rdw => ['R','D','W']
  | .rdout => ['R','D','O','U','T']

end Sys2Proof.Machine
end

