-- ==== Sys2Proof/Machine/Reference.lean ====
section
/-! DEFINITION. The record of five registers (10_state.md R20) and the whole semantics as one function on it (44_system.md
R143), written a second time, on natural numbers and straight from that rule, "for a model to check its arms against". The
step does not use this file. -/

namespace Sys2Proof.Machine

/-- "The architectural state of the block is five registers and nothing else" (R20). -/
structure Regs where
  phase : Word24
  step  : Word24
  wsel  : WaveKind
  en    : Bool
  out   : Byte
deriving DecidableEq, Repr

/-- The five registers of a state. -/
def State.regs (s : State) : Regs :=
  { phase := s.phase, step := s.step, wsel := s.wsel, en := s.en, out := s.out }

/-- ResetState (R143). -/
def refReset : Regs := { phase := 0#24, step := 0#24, wsel := .sine, en := false, out := 0#8 }

/-- The response word with code c and data d (30_encoding.md R64). -/
def refRsp (c d : Nat) : Word := BitVec.ofNat 32 (c * 2 ^ 24 + d)

/-- Exec(S, w) (R143): the new registers and the response word. -/
def refExec (c : Config) (S : Regs) (w : Word) : Regs × Word :=
  match decode w with
  | .error _ => (S, refRsp 3 0)
  | .ok .nop => (S, refRsp 0 0)
  | .ok (.setf hz) =>
    if c.minFreq ≤ hz ∧ hz ≤ c.maxFreq then
      ({ S with step := BitVec.ofNat 24 (stepOf c hz) }, refRsp 0 (stepOf c hz))
    else (S, refRsp 1 0)
  | .ok (.selw k) =>
    match k with
    | 0 => ({ S with wsel := .sine }, refRsp 0 0)
    | 1 => ({ S with wsel := .triangle }, refRsp 0 1)
    | 2 => ({ S with wsel := .sawtooth }, refRsp 0 2)
    | 3 => ({ S with wsel := .reverseSawtooth }, refRsp 0 3)
    | 4 => ({ S with wsel := .square }, refRsp 0 4)
    | _ => (S, refRsp 2 0)
  | .ok .en => ({ S with en := true }, refRsp 0 1)
  | .ok .dis => ({ S with en := false }, refRsp 0 0)
  | .ok .tgl => ({ S with en := !S.en }, refRsp 0 (1 - S.en.toNat))
  | .ok .rden => (S, refRsp 0 S.en.toNat)
  | .ok .rstph => ({ S with phase := 0#24 }, refRsp 0 0)
  | .ok .rdstep => (S, refRsp 0 S.step.toNat)
  | .ok .rdph => (S, refRsp 0 S.phase.toNat)
  | .ok .rdw => (S, refRsp 0 (kindNumber S.wsel))
  | .ok .rdout => (S, refRsp 0 S.out.toNat)

/-- TickStep(S) (R143): the new registers and the emitted sample, if any. -/
def refTick (c : Config) (S : Regs) : Regs × Option Byte :=
  if S.en then
    let p1 := (S.phase.toNat + S.step.toNat) % 2 ^ 24
    let v := romRead c.waveRom S.wsel (BitVec.ofNat 8 (p1 / 2 ^ 16))
    ({ S with phase := BitVec.ofNat 24 p1, out := v }, some v)
  else (S, none)

end Sys2Proof.Machine
end

