-- ==== Sys2Proof/Safety.lean ====
section
/-! DEFINITION. What counts as a safe run, and the invariant the registers of the clocked block satisfy in every state a run
reaches. -/

namespace Sys2Proof.Machine

/-- A response word the block can produce: a code of 30_encoding.md R65, and data 0 with any code other than OK. -/
def legalResponse (w : Word) : Prop :=
  w.toNat / 2 ^ 24 ≤ 3 ∧ (w.toNat / 2 ^ 24 ≠ 0 → w.toNat % 2 ^ 24 = 0)

/-- A value STEP can hold: the reset value, or the step of an accepted frequency (10_state.md R22). -/
def legalStep (c : Config) (v : Word24) : Prop :=
  v = 0#24 ∨ ∃ hz, c.minFreq ≤ hz ∧ hz ≤ c.maxFreq ∧ v.toNat = stepOf c hz

/-- The invariant of the clocked block. -/
structure Inv (s : State) : Prop where
  /-- TCNT counts 0 .. TICK_CYCLES-1 (10_state.md R27) -/
  tcnt_lt : s.tcnt < s.cfg.val.tickCycles
  /-- STEP is 0 or an accepted frequency's step (10_state.md R22) -/
  step_legal : legalStep s.cfg.val s.step
  /-- while `rsp_valid` = 1, `rsp_word` is the latest response (20_memory.md R53), its code is 0 to 3, and an error carries
  no data (30_encoding.md R65) -/
  response_shown : s.rspValid = true → s.responses.getLast? = some s.rspWord ∧ legalResponse s.rspWord
  /-- `out_we` = 1 only in the cycle after an emitting Tick: EN is 1, TCNT has just wrapped, the emission is the latest of
  the trace, and it is the selected table at the top byte of PHASE (20_memory.md R51, R54, 41_dds_engine.md R90) -/
  strobe : s.outWe = true → s.en = true ∧ s.tcnt = 0 ∧ s.trace.getLast? = some s.out ∧
    s.out = romRead s.cfg.val.waveRom s.wsel (highByte s.phase)

/-- A safe run: no number of edges stops the machine ("Stuck: none", 60_exceptions.md R167). -/
def NeverStops (s : State) : Prop := ∀ n, ∃ t, Sys2Proof.core.run n s = .next t

end Sys2Proof.Machine
end

