-- ==== Sys2Proof/Certificates/Slice0/Obligations.lean ====
section
/-! DEFINITION. The statements about the FG100ALT-DDS core, each from the numbered rules its docstring names. Response words
and register values are written out here from the rules, not through the model's own `respond` and `rspOf`. -/

namespace Sys2Proof.Machine

/-- `s` after a response `w` that is shown on `rsp_word` with `rsp_valid` = 1 and joins the responses, all else as in `s`
(20_memory.md R53). -/
def answered (s : State) (w : Word) : State :=
  { s with rspValid := true, rspWord := w, responses := s.responses ++ [w] }

/-- `s` after the prescaler's half of an edge (20_memory.md R54): on TCNT = TICK_CYCLES - 1 a Tick and TCNT 0, else TCNT + 1;
`out_we` 0 before the Tick. -/
def afterPrescaler (s : State) : State :=
  if s.tcnt = s.cfg.val.tickCycles - 1 then tick { s with tcnt := 0, outWe := false }
  else { s with tcnt := s.tcnt + 1, outWe := false }

/-- The kinds with their numbers, as 40_waveform_table.md R80 lists them. -/
def kindsByNumber : List (WaveKind × Nat) :=
  [(.sine, 0), (.triangle, 1), (.sawtooth, 2), (.reverseSawtooth, 3), (.square, 4)]

/-- The (i+1)-th of the Ticks from `s` carries out of bit 23: PHASE wraps. -/
def wrapsAt (s : State) (i : Nat) : Prop := 2 ^ 24 ≤ (tick^[i] s).phase.toNat + s.step.toNat

/-- How many of the first `n` Ticks from `s` wrap PHASE. -/
def wrapCount (s : State) (n : Nat) : Nat :=
  ((List.range n).filter fun i => decide (2 ^ 24 ≤ (tick^[i] s).phase.toNat + s.step.toNat)).length

/-- Ticks `a+1` and `a+1+l` of the Ticks from `s` wrap PHASE and none between them does: a waveform cycle of `l` Ticks. -/
def cycleFrom (s : State) (a l : Nat) : Prop :=
  0 < l ∧ wrapsAt s a ∧ wrapsAt s (a + l) ∧ ∀ j, 0 < j → j < l → ¬ wrapsAt s (a + j)

/-- The two states agree on everything but the response port, the observations and the free-value counter. -/
def agreeOnHardware (s t : State) : Prop :=
  s.cfg = t.cfg ∧ s.regs = t.regs ∧ s.tcnt = t.tcnt ∧ s.outWe = t.outWe ∧ s.inputs = t.inputs

end Sys2Proof.Machine

open Sys2Proof Sys2Proof.Machine

/-! ## Encoding -/

/-- 30_encoding.md R70: the decoder's table, on the numbers of the opcode and operand fields. -/
def Obligations.DecodeFollowsTheTotalTable : Prop :=
  ∀ w : Word,
    match w.toNat / 2 ^ 24, w.toNat % 2 ^ 24 with
    | 1, a => decode w = .ok (.setf a)
    | 2, a => decode w = .ok (.selw a)
    | 0, 0 => decode w = .ok .nop
    | 3, 0 => decode w = .ok .en
    | 4, 0 => decode w = .ok .dis
    | 5, 0 => decode w = .ok .tgl
    | 6, 0 => decode w = .ok .rden
    | 7, 0 => decode w = .ok .rstph
    | 8, 0 => decode w = .ok .rdstep
    | 9, 0 => decode w = .ok .rdph
    | 10, 0 => decode w = .ok .rdw
    | 11, 0 => decode w = .ok .rdout
    | _, _ => ∃ r, decode w = .error r

/-- 30_encoding.md R63: a word is a row's command exactly when `w & mask = match`, no two rows overlap, and a word that
matches no row is illegal. -/
def Obligations.OpcodeRowsSelectTheirCommands : Prop :=
  (∀ w : Word, ∀ row ∈ opcodeTable,
    (w &&& row.mask = row.value ↔ ∃ i, decode w = .ok i ∧ mnemonicOf i = row.mnemonic)) ∧
  opcodeTable.Pairwise (fun r r' => ∀ w : Word, ¬ (w &&& r.mask = r.value ∧ w &&& r'.mask = r'.value)) ∧
  (∀ w : Word, (∀ row ∈ opcodeTable, w &&& row.mask ≠ row.value) → ∃ r, decode w = .error r)

/-- 30_encoding.md R70: `Decode(Encode(c)) = c` for every command with every operand of 24 bits. -/
def Obligations.DecodeInvertsEncode : Prop :=
  ∀ i : Instr, i.wf = true → decode (encode i) = .ok i

/-- 30_encoding.md R70: `Encode(Decode(w)) = w` for every word that is a command, which is well formed. -/
def Obligations.EncodeInvertsDecode : Prop :=
  ∀ (w : Word) (i : Instr), decode w = .ok i → i.wf = true ∧ encode i = w

/-- 30_encoding.md R70: ILL names the 4,261,412,854 words that match no row. -/
def Obligations.IllegalWordsCounted : Prop :=
  ((Finset.range (2 ^ 32)).filter fun n => (decode (BitVec.ofNat 32 n)).isOk = false).card = 4261412854

/-- Words written out from 30_encoding.md R63 decode to the commands they stand for. -/
def Obligations.WordsOfTheTableDecode : Prop :=
  decode 0x00000000#32 = .ok .nop ∧ decode 0x010001F4#32 = .ok (.setf 500) ∧
  decode 0x01FFFFFF#32 = .ok (.setf 16777215) ∧ decode 0x02000004#32 = .ok (.selw 4) ∧
  decode 0x02000100#32 = .ok (.selw 256) ∧ decode 0x03000000#32 = .ok .en ∧ decode 0x04000000#32 = .ok .dis ∧
  decode 0x05000000#32 = .ok .tgl ∧ decode 0x06000000#32 = .ok .rden ∧ decode 0x07000000#32 = .ok .rstph ∧
  decode 0x08000000#32 = .ok .rdstep ∧ decode 0x09000000#32 = .ok .rdph ∧ decode 0x0A000000#32 = .ok .rdw ∧
  decode 0x0B000000#32 = .ok .rdout

/-- 30_encoding.md R66: opcodes 0x0C to 0xFF with any operand answer ERR_ILLEGAL_CMD and write no register. -/
def Obligations.ReservedOpcodesAreIllegal : Prop :=
  ∀ (w : Word) (s : State), 0x0C ≤ w.toNat / 2 ^ 24 → acceptCommand w s = .next (answered s 0x03000000#32)

/-- 30_encoding.md R67: the ten commands without operand, with a non-zero operand field, are illegal. -/
def Obligations.NonZeroOperandIsIllegal : Prop :=
  ∀ (w : Word) (s : State), w.toNat / 2 ^ 24 ∈ [0x00, 0x03, 0x04, 0x05, 0x06, 0x07, 0x08, 0x09, 0x0A, 0x0B] →
    w.toNat % 2 ^ 24 ≠ 0 → acceptCommand w s = .next (answered s 0x03000000#32)

/-! ## Commands: result, frame and completion in one equation -/

/-- 42_frequency_controller.md R112, R113: in range, STEP and the response carry the truncated exact product with CAL_Q, which
fits 24 bits; out of range, ERR_FREQ_RANGE and nothing written. -/
def Obligations.SetfInstallsTheStepOrRejects : Prop :=
  ∀ (s : State) (hz : Nat),
    (s.cfg.val.minFreq ≤ hz → hz ≤ s.cfg.val.maxFreq →
      ∃ v : Word24, v.toNat = hz * calQ s.cfg.val / 2 ^ s.cfg.val.calFrac ∧
        exec (.setf hz) s = .next (answered { s with step := v } (0x00#8 ++ v))) ∧
    (hz < s.cfg.val.minFreq ∨ s.cfg.val.maxFreq < hz →
      exec (.setf hz) s = .next (answered s 0x01000000#32))

/-- 40_waveform_table.md R80, R81: a kind 0 to 4 is selected and answered; any larger operand is ERR_WAVE_KIND and writes
nothing. -/
def Obligations.SelwSelectsOrRejects : Prop :=
  ∀ s : State,
    (∀ p ∈ kindsByNumber, exec (.selw p.2) s = .next (answered { s with wsel := p.1 } (BitVec.ofNat 32 p.2))) ∧
    (∀ kind, 4 < kind → exec (.selw kind) s = .next (answered s 0x02000000#32))

/-- 43_output_gate.md R126, R127, R129: the gate commands write EN alone and answer its new value; after EN the next Tick emits,
after DIS no Tick changes anything, and two TGL restore EN whatever Ticks fall between them. -/
def Obligations.GateCommandsWriteEnAlone : Prop :=
  ∀ (s : State) (n : Nat),
    exec .en s = .next (answered { s with en := true } 0x00000001#32) ∧
    (tick (answered { s with en := true } 0x00000001#32)).trace =
      s.trace ++ [(tick (answered { s with en := true } 0x00000001#32)).out] ∧
    exec .dis s = .next (answered { s with en := false } 0x00000000#32) ∧
    tick^[n] (answered { s with en := false } 0x00000000#32) = answered { s with en := false } 0x00000000#32 ∧
    (s.en = false → exec .tgl s = .next (answered { s with en := true } 0x00000001#32)) ∧
    (s.en = true → exec .tgl s = .next (answered { s with en := false } 0x00000000#32)) ∧
    ∃ t u, exec .tgl s = .next t ∧ exec .tgl (tick^[n] t) = .next u ∧ u.en = s.en

/-- 41_dds_engine.md R91: RSTPH writes PHASE alone; when Running the next Tick emits the table at STEP[23:16], which is entry 0
exactly when STEP < 2^16 (R101). -/
def Obligations.RstphRestartsThePhase : Prop :=
  ∀ s : State,
    exec .rstph s = .next (answered { s with phase := 0#24 } 0x00000000#32) ∧
    (s.en = true →
      (tick (answered { s with phase := 0#24 } 0x00000000#32)).trace =
        s.trace ++ [romRead s.cfg.val.waveRom s.wsel (BitVec.ofNat 8 (s.step.toNat / 2 ^ 16))]) ∧
    (s.step.toNat / 2 ^ 16 = 0 ↔ s.step.toNat < 2 ^ 16)

/-- 44_system.md R140, 43_output_gate.md R130, 42_frequency_controller.md R114, 41_dds_engine.md R92, R93, 40_waveform_table.md
R82: NOP and the read-backs answer and write nothing; RDEN answers what the pin `en_q` shows. -/
def Obligations.ReadBacksAnswerAndWriteNothing : Prop :=
  ∀ s : State,
    exec .nop s = .next (answered s 0x00000000#32) ∧
    exec .rden s = .next (answered s (if s.en then 0x00000001#32 else 0x00000000#32)) ∧ (outPins s).enQ = s.en ∧
    exec .rdstep s = .next (answered s (BitVec.ofNat 32 s.step.toNat)) ∧
    exec .rdph s = .next (answered s (BitVec.ofNat 32 s.phase.toNat)) ∧
    (∀ p ∈ kindsByNumber, s.wsel = p.1 → exec .rdw s = .next (answered s (BitVec.ofNat 32 p.2))) ∧
    exec .rdout s = .next (answered s (BitVec.ofNat 32 s.out.toNat))

/-! ## All commands together -/

/-- 60_exceptions.md R152: a command that answers with a code other than OK changes nothing but the response. -/
def Obligations.ErrorsWriteNothing : Prop :=
  ∀ (w : Word) (s t : State), acceptCommand w s = .next t → t.rspWord.toNat / 2 ^ 24 ≠ 0 →
    t = answered s t.rspWord ∧ t.rspWord.toNat % 2 ^ 24 = 0

/-- 60_exceptions.md R151: which error each word draws, and that no other word draws one. -/
def Obligations.ErrorsHaveTheirCauses : Prop :=
  ∀ (w : Word) (s t : State), acceptCommand w s = .next t →
    (t.rspWord.toNat / 2 ^ 24 = 1 ↔
      ∃ hz, decode w = .ok (.setf hz) ∧ (hz < s.cfg.val.minFreq ∨ s.cfg.val.maxFreq < hz)) ∧
    (t.rspWord.toNat / 2 ^ 24 = 2 ↔ ∃ k, decode w = .ok (.selw k) ∧ 4 < k) ∧
    (t.rspWord.toNat / 2 ^ 24 = 3 ↔ ∃ r, decode w = .error r) ∧
    t.rspWord.toNat / 2 ^ 24 ≤ 3

/-- 44_system.md R142: in every state, Running or Halted, every word is executed, yields one response, writes at most one of
PHASE, STEP, WSEL, EN, and never OUT, the trace, the strobe or the prescaler. -/
def Obligations.EveryWordCompletesWritingOneRegister : Prop :=
  ∀ (w : Word) (s : State), ∃ t, acceptCommand w s = .next t ∧
    (∃ v e k p, t = answered { s with step := v, en := e, wsel := k, phase := p } t.rspWord) ∧
    ((t.step = s.step ∧ t.wsel = s.wsel ∧ t.en = s.en) ∨ (t.phase = s.phase ∧ t.wsel = s.wsel ∧ t.en = s.en) ∨
      (t.phase = s.phase ∧ t.step = s.step ∧ t.en = s.en) ∨ (t.phase = s.phase ∧ t.step = s.step ∧ t.wsel = s.wsel))

/-- 44_system.md R142: the effect and the response depend only on the word, the five registers and the configuration. -/
def Obligations.CommandsDependOnRegistersOnly : Prop :=
  ∀ (w : Word) (s s' t t' : State), s.cfg = s'.cfg → s.regs = s'.regs →
    acceptCommand w s = .next t → acceptCommand w s' = .next t' → t.regs = t'.regs ∧ t.rspWord = t'.rspWord

/-- 44_system.md R143: the model is the spec's whole semantics, command, Tick and Reset, on the record of five registers. -/
def Obligations.ModelIsTheWholeSemantics : Prop :=
  (∀ (w : Word) (s : State), ∃ t, acceptCommand w s = .next t ∧
    (t.regs, t.rspWord) = refExec s.cfg.val s.regs w) ∧
  (∀ s : State, ((tick s).regs = (refTick s.cfg.val s.regs).1 ∧
    (tick s).trace = s.trace ++ (refTick s.cfg.val s.regs).2.toList)) ∧
  (∀ s : State, (doReset s).regs = refReset)

/-! ## The engine -/

/-- 41_dds_engine.md R90: a Halted Tick changes nothing; a Running one adds STEP to PHASE modulo 2^24, and writes and emits
the table entry at the top byte of the new PHASE. -/
def Obligations.TickAdvancesThenEmits : Prop :=
  ∀ s : State,
    (s.en = false → tick s = s) ∧
    (s.en = true → ∃ p : Word24, p.toNat = (s.phase.toNat + s.step.toNat) % 2 ^ 24 ∧
      tick s = { s with
        phase := p
        out := romRead s.cfg.val.waveRom s.wsel (BitVec.ofNat 8 (p.toNat / 2 ^ 16))
        outWe := true
        trace := s.trace ++ [romRead s.cfg.val.waveRom s.wsel (BitVec.ofNat 8 (p.toNat / 2 ^ 16))] })

/-- 41_dds_engine.md R97: the closed form of n Ticks, the samples they emit, and how often PHASE wraps. -/
def Obligations.TicksHaveClosedForm : Prop :=
  ∀ (s : State) (n : Nat), s.en = true →
    (tick^[n] s).phase.toNat = (s.phase.toNat + n * s.step.toNat) % 2 ^ 24 ∧
    (tick^[n] s).trace = s.trace ++ (List.range n).map (fun k =>
      romRead s.cfg.val.waveRom s.wsel
        (BitVec.ofNat 8 ((s.phase.toNat + (k + 1) * s.step.toNat) % 2 ^ 24 / 2 ^ 16))) ∧
    wrapCount s n = (s.phase.toNat + n * s.step.toNat) / 2 ^ 24

/-- 41_dds_engine.md R98, the period: PHASE repeats after exactly 2^24 / gcd(STEP, 2^24) Ticks, in which it wraps
STEP / gcd(STEP, 2^24) times wherever it starts; with STEP = 0 it is constant. -/
def Obligations.PhasePeriodIsExact : Prop :=
  ∀ s : State, s.en = true →
    (∀ m n, (tick^[m] s).phase = (tick^[n] s).phase ↔ m ≡ n [MOD 2 ^ 24 / Nat.gcd s.step.toNat (2 ^ 24)]) ∧
    wrapCount s (2 ^ 24 / Nat.gcd s.step.toNat (2 ^ 24)) = s.step.toNat / Nat.gcd s.step.toNat (2 ^ 24)

/-- 41_dds_engine.md R98, single cycles: from wrap to wrap there are floor(2^24/STEP) or ceil(2^24/STEP) Ticks, and exactly
2^24/STEP when STEP divides 2^24. -/
def Obligations.CyclesLastFloorOrCeiling : Prop :=
  ∀ (s : State) (a l : Nat), s.en = true → 0 < s.step.toNat → cycleFrom s a l →
    (l = 2 ^ 24 / s.step.toNat ∨ l = (2 ^ 24 + s.step.toNat - 1) / s.step.toNat) ∧
    (s.step.toNat ∣ 2 ^ 24 → l = 2 ^ 24 / s.step.toNat)

/-- 41_dds_engine.md R102, its first sentence: with 0 < STEP <= 2^16 every index occurs in every waveform cycle. -/
def Obligations.SmallStepsCoverTheTable : Prop :=
  ∀ (s : State) (a l : Nat), s.en = true → 0 < s.step.toNat → s.step.toNat ≤ 2 ^ 16 → cycleFrom s a l →
    ∀ i : Byte, ∃ j, j < l ∧ (tick^[a + 1 + j] s).phase.toNat / 2 ^ 16 = i.toNat

/-- 41_dds_engine.md R100: the Tick after a SETF or a SELW computes from the PHASE the last Tick left and the new STEP or
WSEL. -/
def Obligations.PhaseIsContinuous : Prop :=
  ∀ s : State, s.en = true →
    (∀ hz t, exec (.setf hz) s = .next t → t.phase = s.phase ∧ (tick t).phase = s.phase + t.step) ∧
    (∀ k t, exec (.selw k) s = .next t → t.phase = s.phase ∧ (tick t).phase = s.phase + s.step ∧ t.out = s.out ∧
      (tick t).out = romRead s.cfg.val.waveRom t.wsel (BitVec.ofNat 8 ((s.phase + s.step).toNat / 2 ^ 16)))

/-! ## The gate -/

/-- 43_output_gate.md R131: k Ticks, DIS, any number of muted Ticks, EN, one Tick: the registers and the trace are those of
k + 1 Ticks without the halt. -/
def Obligations.HaltLosesNoSample : Prop :=
  ∀ (s : State) (k m : Nat), s.en = true →
    ∃ t u, exec .dis (tick^[k] s) = .next t ∧ exec .en (tick^[m] t) = .next u ∧
      (tick^[m] t).trace = (tick^[k] s).trace ∧
      (tick u).regs = (tick^[k + 1] s).regs ∧ (tick u).trace = (tick^[k + 1] s).trace

/-- 43_output_gate.md R128, R131: from a Halted state, whatever the host does short of enabling the gate or resetting, no
sample is emitted, OUT keeps its value and the engine stays Halted; without a restart PHASE stands still too. -/
def Obligations.MutedEngineStaysSilent : Prop :=
  ∀ (es : List Event) (s t : State), s.en = false → runEvents es s = .next t → Event.reset ∉ es →
    (∀ w, Event.cmd w ∈ es → decode w ≠ .ok .en ∧ decode w ≠ .ok .tgl) →
    t.trace = s.trace ∧ t.out = s.out ∧ t.en = false ∧
    ((∀ w, Event.cmd w ∈ es → decode w ≠ .ok .rstph) → t.phase = s.phase)

/-! ## The frequency controller -/

/-- 42_frequency_controller.md R111: CAL_Q is 2^24 * TICK_CYCLES / CLOCK_HZ in units of 2^-CAL_FRAC, rounded to the nearest
unit, ties upward. -/
def Obligations.CalQIsRoundedToNearest : Prop :=
  ∀ c : HwConfig,
    (calQ c.val : ℚ) - 1 / 2 ≤ 2 ^ 24 * c.val.tickCycles / c.val.clockHz * 2 ^ c.val.calFrac ∧
    2 ^ 24 * c.val.tickCycles / c.val.clockHz * 2 ^ c.val.calFrac < (calQ c.val : ℚ) + 1 / 2

/-- 42_frequency_controller.md R116: strictly increasing in every well-formed configuration, by at least the whole part of the
calibration constant, which is at least 1; in T0 neighbours differ by 5 or 6. -/
def Obligations.StepIsStrictlyIncreasing : Prop :=
  (∀ (c : HwConfig) (f g : Nat), f < g → stepOf c.val f < stepOf c.val g) ∧
  (∀ (c : HwConfig) (f : Nat), stepOf c.val f + calQ c.val / 2 ^ c.val.calFrac ≤ stepOf c.val (f + 1) ∧
    1 ≤ calQ c.val / 2 ^ c.val.calFrac) ∧
  (∀ f, stepOf Config.t0 (f + 1) = stepOf Config.t0 f + 5 ∨ stepOf Config.t0 (f + 1) = stepOf Config.t0 f + 6)

/-- 42_frequency_controller.md R117, its first sentence: the bounds of the installed step against the ideal hz * C. -/
def Obligations.StepIsAccurate : Prop :=
  ∀ (c : HwConfig) (hz : Nat), 0 < hz → c.val.minFreq ≤ hz → hz ≤ c.val.maxFreq →
    let ideal : ℚ := hz * (2 ^ 24 * c.val.tickCycles / c.val.clockHz)
    ideal - 1 - hz / 2 ^ (c.val.calFrac + 1) < stepOf c.val hz ∧
    (stepOf c.val hz : ℚ) ≤ ideal + hz / 2 ^ (c.val.calFrac + 1)

/-- 42_frequency_controller.md R117 for T0: over 1 to 1,000,000 Hz the output frequency of 41_dds_engine.md R99 is within 1 %
of hz, and the error is nowhere larger than at 1 Hz. -/
def Obligations.TestConfigurationWithinOnePercent : Prop :=
  ∀ hz : Nat, 1 ≤ hz → hz ≤ 1000000 →
    let err : Nat → ℚ := fun f => |(stepOf Config.t0 f : ℚ) * 30000000 / (9 * 2 ^ 24) - f| / f
    err hz ≤ err 1 ∧ err hz < 1 / 100

/-- 42_frequency_controller.md R118 and example E1: in T0, SETF 500 installs 2516, and the 3,333,333 Ticks of a simulated
second from PHASE 0 wrap 499 times and leave 0xE25D64. -/
def Obligations.WorkedExampleOfTheSource : Prop :=
  ∀ s : State, s.cfg.val = Config.t0 → s.phase = 0#24 → s.en = true →
    ∃ t, exec (.setf 500) s = .next t ∧ t.step = 2516#24 ∧ t.rspWord = 0x000009D4#32 ∧
      wrapCount t 3333333 = 499 ∧ (tick^[3333333] t).phase = 0xE25D64#24

/-! ## Edges, reset, invariants -/

/-- 10_state.md R34: what the Reset event writes; `rsp_word` is whatever it is, all the rest stands, and nothing is emitted. -/
def Obligations.ResetEventWritesEveryRegister : Prop :=
  ∀ s : State, ∃ w, doReset s = { s with
    phase := 0x000000#24, step := 0x000000#24, wsel := .sine, en := false, out := 0x00#8, tcnt := 0,
    rspValid := false, outWe := false, rspWord := w, freeCtr := s.freeCtr + 1 }

/-- 70_reset_and_hazards.md R175, 60_exceptions.md R156: an edge with `rst` = 1 is the Reset event alone, whatever command is
presented and wherever the prescaler stands. -/
def Obligations.ResetEdgeDoesNothingElse : Prop :=
  ∀ (s : State) (p : PinInputs) (ps : List PinInputs), s.inputs = p :: ps → p.rst = true →
    step s = .next (doReset { s with inputs := ps })

/-- 20_memory.md R54: an edge with `rst` = 0 on which a word is presented that decodes to i runs exec of i, then the
prescaler and on its wrap the Tick. -/
def Obligations.EdgeRunsTheDecodedCommand : Prop :=
  ∀ (s : State) (p : PinInputs) (ps : List PinInputs) (i : Instr),
    s.inputs = p :: ps → p.rst = false → p.cmdValid = true → decode p.cmdWord = .ok i →
    ∃ t, exec i { s with inputs := ps } = .next t ∧ step s = .next (afterPrescaler t)

/-- 44_system.md R141 on an edge: a word that is no command is answered ERR_ILLEGAL_CMD and writes nothing; the Tick goes
on. -/
def Obligations.EdgeAnswersIllegalWords : Prop :=
  ∀ (s : State) (p : PinInputs) (ps : List PinInputs) (r : IllReason),
    s.inputs = p :: ps → p.rst = false → p.cmdValid = true → decode p.cmdWord = .error r →
    step s = .next (afterPrescaler (answered { s with inputs := ps } 0x03000000#32))

/-- 20_memory.md R54: an edge with `rst` = 0 and `cmd_valid` = 0 only clears `rsp_valid` and runs the prescaler; `cmd_word` is
ignored. With no inputs left the host presents nothing (log 2, a choice of the model). -/
def Obligations.IdleEdgeOnlyTicks : Prop :=
  ∀ s : State, (s.inputs = [] ∨ ∃ p ps, s.inputs = p :: ps ∧ p.rst = false ∧ p.cmdValid = false) →
    ∃ w, step s = .next (afterPrescaler
      { s with inputs := s.inputs.tail, rspValid := false, rspWord := w, freeCtr := s.freeCtr + 1 })

/-- log 16, a choice of the model: the step after `withFetchWord` runs exactly the command of the word placed. -/
def Obligations.PlacedWordRunsNext : Prop :=
  ∀ (s : State) (nbits w : Nat) (i : Instr), decodeTableWord nbits w = some i →
    ∃ t, exec i { s with inputs := s.inputs.tail } = .next t ∧
      step (s.withFetchWord nbits w) = .next (afterPrescaler t)

/-- 60_exceptions.md R167: in every state every event has a successor, and no number of edges stops the machine. -/
def Obligations.NothingEverStops : Prop :=
  (∀ (e : Event) (s : State), ∃ t, applyEvent e s = .next t) ∧ (∀ s : State, NeverStops s)

/-- The invariant `Inv` (10_state.md R22, R27; 20_memory.md R51, R53; 30_encoding.md R65) is kept by every step. -/
def Obligations.EveryStepKeepsTheInvariant : Prop :=
  ∀ s t : State, Inv s → step s = .next t → Inv t

/-- The state after reset meets `Inv`, in every instance. -/
def Obligations.ResetStateMeetsTheInvariant : Prop :=
  (∀ c : HwConfig, Inv (State.resetOf c)) ∧ Inv State.reset

/-- 10_state.md R35: before the first Reset every register is unspecified; one edge with `rst` = 1 establishes the
invariant from any state at all. -/
def Obligations.ResetEdgeEstablishesTheInvariant : Prop :=
  ∀ (s t : State) (p : PinInputs) (ps : List PinInputs), s.inputs = p :: ps → p.rst = true →
    step s = .next t → Inv t

/-- 43_output_gate.md R125: Running exactly when EN = 1, and all the transitions of the machine over one edge. -/
def Obligations.GateTransitions : Prop :=
  (∀ s : State, gateState s = .running ↔ s.en = true) ∧
  ∀ s t : State, step s = .next t →
    match s.inputs with
    | [] => t.en = s.en
    | p :: _ =>
      if p.rst then t.en = false
      else if p.cmdValid then
        match decode p.cmdWord with
        | .ok .en => t.en = true
        | .ok .dis => t.en = false
        | .ok .tgl => t.en = !s.en
        | _ => t.en = s.en
      else t.en = s.en

/-- 10_state.md R21: over one edge PHASE changes only by Reset, by RSTPH, or by a Tick with EN = 1; this is its value. -/
def Obligations.OnlyResetRestartAndTickWritePhase : Prop :=
  ∀ s t : State, step s = .next t →
    let p := s.inputs.headD ⟨false, false, 0#32⟩
    let start := if p.cmdValid ∧ decode p.cmdWord = .ok .rstph then 0#24 else s.phase
    if p.rst then t.phase = 0#24
    else if s.tcnt = s.cfg.val.tickCycles - 1 ∧ t.en = true then t.phase = start + t.step
    else t.phase = start

/-- 10_state.md R22, R25: over one edge STEP changes only by Reset or an accepted SETF, and WSEL only by Reset or an accepted
SELW. -/
def Obligations.OnlyResetAndTheirCommandWriteStepAndWsel : Prop :=
  ∀ s t : State, step s = .next t →
    let p := s.inputs.headD ⟨false, false, 0#32⟩
    (t.step ≠ s.step → p.rst = true ∨ (p.cmdValid = true ∧ ∃ hz, decode p.cmdWord = .ok (.setf hz) ∧
      s.cfg.val.minFreq ≤ hz ∧ hz ≤ s.cfg.val.maxFreq ∧ t.step.toNat = stepOf s.cfg.val hz)) ∧
    (t.wsel ≠ s.wsel → p.rst = true ∨ (p.cmdValid = true ∧ decode p.cmdWord = .ok (.selw (kindNumber t.wsel))))

/-- 10_state.md R23, 20_memory.md R51: over one edge OUT, the strobe and the trace move together: with `out_we` = 1 afterwards
OUT is emitted once and EN = 1; otherwise the trace stands, and OUT stands but for Reset, which emits nothing. -/
def Obligations.StrobeOutAndTraceAgree : Prop :=
  ∀ s t : State, step s = .next t →
    t.trace = s.trace ++ (if t.outWe then [t.out] else []) ∧
    (t.outWe = true → t.en = true ∧ s.tcnt = s.cfg.val.tickCycles - 1) ∧
    (t.outWe = false → t.out = s.out ∨ ((s.inputs.headD ⟨false, false, 0#32⟩).rst = true ∧ t.out = 0#8))

/-- 20_memory.md R53, 30_encoding.md R65: one response for each accepted command and none otherwise, and only legal ones. -/
def Obligations.OneResponsePerCommand : Prop :=
  ∀ s t : State, step s = .next t →
    let p := s.inputs.headD ⟨false, false, 0#32⟩
    t.rspValid = (!p.rst && p.cmdValid) ∧
    t.responses = s.responses ++ (if t.rspValid then [t.rspWord] else []) ∧
    (t.rspValid = true → legalResponse t.rspWord)

/-- 20_memory.md R42, 10_state.md R32: no step changes the configuration, so every byte of the ROM reads as before. -/
def Obligations.RomAndConfigurationAreConstant : Prop :=
  ∀ s t : State, step s = .next t →
    t.cfg = s.cfg ∧ ∀ a, memRead t.cfg.val.waveRom a = memRead s.cfg.val.waveRom a

/-- 20_memory.md R54, 70_reset_and_hazards.md R176, R189: from TCNT = 0 over n edges without `rst`, TCNT is n mod TICK_CYCLES
and there have been n / TICK_CYCLES Ticks, whatever commands are presented. -/
def Obligations.TicksFallOnTheGrid : Prop :=
  ∀ (s : State) (n : Nat), s.tcnt = 0 → (∀ p ∈ s.inputs.take n, p.rst = false) →
    ∃ t, Sys2Proof.core.run n s = .next t ∧ t.tcnt = n % s.cfg.val.tickCycles ∧
      (eventsOfEdges s.cfg.val.tickCycles n 0 s.inputs).count .tick = n / s.cfg.val.tickCycles

/-- 20_memory.md R54, 00_scope.md R17: n edges have the registers, the trace and the responses of the run of their events. -/
def Obligations.EdgesRefineEvents : Prop :=
  ∀ (n : Nat) (s : State),
    ∃ t u, Sys2Proof.core.run n s = .next t ∧
      runEvents (eventsOfEdges s.cfg.val.tickCycles n s.tcnt s.inputs) s = .next u ∧
      t.regs = u.regs ∧ t.trace = u.trace ∧ t.responses = u.responses

/-- 10_state.md R32: the observations, the response port and the model's free values are read by no event: runs that differ
in them alone agree on all the hardware, for any number of edges. -/
def Obligations.ObservationsAreNeverRead : Prop :=
  ∀ (n : Nat) (s s' : State), agreeOnHardware s s' →
    ∃ t t', Sys2Proof.core.run n s = .next t ∧ Sys2Proof.core.run n s' = .next t' ∧ agreeOnHardware t t' ∧
      (0 < n → t.rspValid = t'.rspValid ∧ (t.rspValid = true → t.rspWord = t'.rspWord))

/-! ## The waveform ROM -/

/-- 20_memory.md R41, R49, R50: the default tables 1 to 4 at their flat addresses, entry by entry. -/
def Obligations.DefaultTablesAtTheirAddresses : Prop :=
  ∀ i : Nat, i < 256 →
    memRead [] (256 + i) = some (BitVec.ofNat 8 (if i ≤ 127 then 2 * i else 511 - 2 * i)) ∧
    memRead [] (512 + i) = some (BitVec.ofNat 8 i) ∧
    memRead [] (768 + i) = some (BitVec.ofNat 8 (255 - i)) ∧
    memRead [] (1024 + i) = some (if i ≤ 127 then 255#8 else 0#8)

/-- 20_memory.md R41: entry i of table k is at 256 * k + i, and addresses from 1,280 on hold nothing. -/
def Obligations.RomAddressesAreFlat : Prop :=
  ∀ m : Memory, (∀ p ∈ kindsByNumber, ∀ i : Byte, memRead m (256 * p.2 + i.toNat) = some (romRead m p.1 i)) ∧
    (∀ a, 1280 ≤ a → memRead m a = none)

/-- 00_scope.md R8: WAVE_ROM may be any function of kind and index; its canonical list reads as it. -/
def Obligations.EveryTableIsRepresented : Prop :=
  ∀ (f : WaveKind → Byte → Byte) (k : WaveKind) (i : Byte), romRead (romOfTable f) k i = f k i

/-- log 10: equal ROMs are equal data. -/
def Obligations.RomListIsCanonical : Prop :=
  ∀ m m' : Memory, Memory.wf m = true → Memory.wf m' = true → (∀ k i, romRead m k i = romRead m' k i) → m = m'

/-- 00_scope.md R9 WF7: in every instance the square table has exactly two levels. -/
def Obligations.SquareTableHasTwoLevels : Prop :=
  ∀ c : HwConfig, (Finset.univ.image fun i : Byte => romRead c.val.waveRom .square i).card = 2

/-! ## The assembler -/

/-- 30_encoding.md R72: every command, with every operand of 24 bits, written as a line is assembled to its command word. -/
def Obligations.AssemblerReadsWrittenCommands : Prop :=
  ∀ i : Instr, i.wf = true → assembleLine (writeLine i) = .ok [.cmd (encode i)]
end

