-- ==== Sys2Proof/Laws/PerInstr.lean ====
section
/-! SUPPORT. For every command: the number its encoding is, `Encode(c)` of 30_encoding.md R70. -/

namespace Sys2Proof.Laws

/-- A word's number from its opcode byte and operand field (30_encoding.md R61). -/
theorem append_toNat (op : Byte) {a : Nat} (h : a < 2 ^ 24) :
    (op ++ BitVec.ofNat 24 a).toNat = op.toNat * 2 ^ 24 + a := by
  rw [BitVec.toNat_append, BitVec.toNat_ofNat, Nat.mod_eq_of_lt h, ← Nat.shiftLeft_add_eq_or_of_lt h,
    Nat.shiftLeft_eq]

end Sys2Proof.Laws

namespace Sys2Proof.Laws.EncodedValue

/-- `Encode(c) = opcode(c) * 2^24 + operand` for a well-formed command (R70). -/
def Statement (i : Instr) : Prop :=
  i.wf = true → (encode i).toNat = (opcodeOf i).toNat * 2 ^ 24 + operandOf i

theorem nop : Statement .nop := fun _ => append_toNat _ (by decide)
theorem setf (hz : Nat) : Statement (.setf hz) := fun h => append_toNat _ (of_decide_eq_true h)
theorem selw (kind : Nat) : Statement (.selw kind) := fun h => append_toNat _ (of_decide_eq_true h)
theorem en : Statement .en := fun _ => append_toNat _ (by decide)
theorem dis : Statement .dis := fun _ => append_toNat _ (by decide)
theorem tgl : Statement .tgl := fun _ => append_toNat _ (by decide)
theorem rden : Statement .rden := fun _ => append_toNat _ (by decide)
theorem rstph : Statement .rstph := fun _ => append_toNat _ (by decide)
theorem rdstep : Statement .rdstep := fun _ => append_toNat _ (by decide)
theorem rdph : Statement .rdph := fun _ => append_toNat _ (by decide)
theorem rdw : Statement .rdw := fun _ => append_toNat _ (by decide)
theorem rdout : Statement .rdout := fun _ => append_toNat _ (by decide)

end Sys2Proof.Laws.EncodedValue
end

