-- ==== Sys2Proof/Laws/Decode.lean ====
section
/-! SUPPORT. The fields of command and response words as numbers, so that no proof unfolds a bit slice. -/

namespace Sys2Proof.Machine

/-- The opcode is the word's top byte (30_encoding.md R61). -/
theorem opcodeField_toNat (w : Word) : (opcodeField w).toNat = w.toNat / 2 ^ 24 := by
  have := w.isLt
  simp only [opcodeField, BitVec.extractLsb'_toNat, Nat.shiftRight_eq_div_pow]
  omega

/-- The operand is the rest (30_encoding.md R61, R62). -/
theorem operandField_toNat (w : Word) : (operandField w).toNat = w.toNat % 2 ^ 24 := by
  simp [operandField]

/-- A response word is code * 2^24 + data (30_encoding.md R64). -/
theorem rspOf_toNat (c : RspCode) (d : Word24) : (rspOf c d).toNat = (codeBits c).toNat * 2 ^ 24 + d.toNat := by
  have h := Laws.append_toNat (codeBits c) d.isLt
  rwa [BitVec.ofNat_toNat, BitVec.setWidth_eq] at h

/-- Its code field. -/
theorem rspOf_code (c : RspCode) (d : Word24) : (rspOf c d).toNat / 2 ^ 24 = (codeBits c).toNat := by
  have := d.isLt
  rw [rspOf_toNat]
  omega

/-- Its data field. -/
theorem rspOf_data (c : RspCode) (d : Word24) : (rspOf c d).toNat % 2 ^ 24 = d.toNat := by
  have := d.isLt
  rw [rspOf_toNat]
  omega

/-- Only the code OK is 0 (30_encoding.md R65). -/
theorem codeBits_eq_zero {c : RspCode} : (codeBits c).toNat = 0 ↔ c = .ok := by cases c <;> decide

end Sys2Proof.Machine
end

