-- ==== Sys2Proof/Laws/State.lean ====
section
/-! SUPPORT. One lemma per field of State per named update of Machine/Ops.lean, so that no later proof unfolds an update. -/

namespace Sys2Proof.Machine

variable (s : State)

@[simp] theorem setPhase_cfg (v : Word24) : (setPhase v s).cfg = s.cfg := rfl
@[simp] theorem setPhase_phase (v : Word24) : (setPhase v s).phase = v := rfl
@[simp] theorem setPhase_step (v : Word24) : (setPhase v s).step = s.step := rfl
@[simp] theorem setPhase_wsel (v : Word24) : (setPhase v s).wsel = s.wsel := rfl
@[simp] theorem setPhase_en (v : Word24) : (setPhase v s).en = s.en := rfl
@[simp] theorem setPhase_out (v : Word24) : (setPhase v s).out = s.out := rfl
@[simp] theorem setPhase_tcnt (v : Word24) : (setPhase v s).tcnt = s.tcnt := rfl
@[simp] theorem setPhase_rspValid (v : Word24) : (setPhase v s).rspValid = s.rspValid := rfl
@[simp] theorem setPhase_rspWord (v : Word24) : (setPhase v s).rspWord = s.rspWord := rfl
@[simp] theorem setPhase_outWe (v : Word24) : (setPhase v s).outWe = s.outWe := rfl
@[simp] theorem setPhase_trace (v : Word24) : (setPhase v s).trace = s.trace := rfl
@[simp] theorem setPhase_responses (v : Word24) : (setPhase v s).responses = s.responses := rfl
@[simp] theorem setPhase_inputs (v : Word24) : (setPhase v s).inputs = s.inputs := rfl
@[simp] theorem setPhase_freeCtr (v : Word24) : (setPhase v s).freeCtr = s.freeCtr := rfl

@[simp] theorem setStep_cfg (v : Word24) : (setStep v s).cfg = s.cfg := rfl
@[simp] theorem setStep_phase (v : Word24) : (setStep v s).phase = s.phase := rfl
@[simp] theorem setStep_step (v : Word24) : (setStep v s).step = v := rfl
@[simp] theorem setStep_wsel (v : Word24) : (setStep v s).wsel = s.wsel := rfl
@[simp] theorem setStep_en (v : Word24) : (setStep v s).en = s.en := rfl
@[simp] theorem setStep_out (v : Word24) : (setStep v s).out = s.out := rfl
@[simp] theorem setStep_tcnt (v : Word24) : (setStep v s).tcnt = s.tcnt := rfl
@[simp] theorem setStep_rspValid (v : Word24) : (setStep v s).rspValid = s.rspValid := rfl
@[simp] theorem setStep_rspWord (v : Word24) : (setStep v s).rspWord = s.rspWord := rfl
@[simp] theorem setStep_outWe (v : Word24) : (setStep v s).outWe = s.outWe := rfl
@[simp] theorem setStep_trace (v : Word24) : (setStep v s).trace = s.trace := rfl
@[simp] theorem setStep_responses (v : Word24) : (setStep v s).responses = s.responses := rfl
@[simp] theorem setStep_inputs (v : Word24) : (setStep v s).inputs = s.inputs := rfl
@[simp] theorem setStep_freeCtr (v : Word24) : (setStep v s).freeCtr = s.freeCtr := rfl

@[simp] theorem setWsel_cfg (k : WaveKind) : (setWsel k s).cfg = s.cfg := rfl
@[simp] theorem setWsel_phase (k : WaveKind) : (setWsel k s).phase = s.phase := rfl
@[simp] theorem setWsel_step (k : WaveKind) : (setWsel k s).step = s.step := rfl
@[simp] theorem setWsel_wsel (k : WaveKind) : (setWsel k s).wsel = k := rfl
@[simp] theorem setWsel_en (k : WaveKind) : (setWsel k s).en = s.en := rfl
@[simp] theorem setWsel_out (k : WaveKind) : (setWsel k s).out = s.out := rfl
@[simp] theorem setWsel_tcnt (k : WaveKind) : (setWsel k s).tcnt = s.tcnt := rfl
@[simp] theorem setWsel_rspValid (k : WaveKind) : (setWsel k s).rspValid = s.rspValid := rfl
@[simp] theorem setWsel_rspWord (k : WaveKind) : (setWsel k s).rspWord = s.rspWord := rfl
@[simp] theorem setWsel_outWe (k : WaveKind) : (setWsel k s).outWe = s.outWe := rfl
@[simp] theorem setWsel_trace (k : WaveKind) : (setWsel k s).trace = s.trace := rfl
@[simp] theorem setWsel_responses (k : WaveKind) : (setWsel k s).responses = s.responses := rfl
@[simp] theorem setWsel_inputs (k : WaveKind) : (setWsel k s).inputs = s.inputs := rfl
@[simp] theorem setWsel_freeCtr (k : WaveKind) : (setWsel k s).freeCtr = s.freeCtr := rfl

@[simp] theorem setEn_cfg (e : Bool) : (setEn e s).cfg = s.cfg := rfl
@[simp] theorem setEn_phase (e : Bool) : (setEn e s).phase = s.phase := rfl
@[simp] theorem setEn_step (e : Bool) : (setEn e s).step = s.step := rfl
@[simp] theorem setEn_wsel (e : Bool) : (setEn e s).wsel = s.wsel := rfl
@[simp] theorem setEn_en (e : Bool) : (setEn e s).en = e := rfl
@[simp] theorem setEn_out (e : Bool) : (setEn e s).out = s.out := rfl
@[simp] theorem setEn_tcnt (e : Bool) : (setEn e s).tcnt = s.tcnt := rfl
@[simp] theorem setEn_rspValid (e : Bool) : (setEn e s).rspValid = s.rspValid := rfl
@[simp] theorem setEn_rspWord (e : Bool) : (setEn e s).rspWord = s.rspWord := rfl
@[simp] theorem setEn_outWe (e : Bool) : (setEn e s).outWe = s.outWe := rfl
@[simp] theorem setEn_trace (e : Bool) : (setEn e s).trace = s.trace := rfl
@[simp] theorem setEn_responses (e : Bool) : (setEn e s).responses = s.responses := rfl
@[simp] theorem setEn_inputs (e : Bool) : (setEn e s).inputs = s.inputs := rfl
@[simp] theorem setEn_freeCtr (e : Bool) : (setEn e s).freeCtr = s.freeCtr := rfl

@[simp] theorem respond_cfg (c : RspCode) (d : Word24) : (respond c d s).cfg = s.cfg := rfl
@[simp] theorem respond_phase (c : RspCode) (d : Word24) : (respond c d s).phase = s.phase := rfl
@[simp] theorem respond_step (c : RspCode) (d : Word24) : (respond c d s).step = s.step := rfl
@[simp] theorem respond_wsel (c : RspCode) (d : Word24) : (respond c d s).wsel = s.wsel := rfl
@[simp] theorem respond_en (c : RspCode) (d : Word24) : (respond c d s).en = s.en := rfl
@[simp] theorem respond_out (c : RspCode) (d : Word24) : (respond c d s).out = s.out := rfl
@[simp] theorem respond_tcnt (c : RspCode) (d : Word24) : (respond c d s).tcnt = s.tcnt := rfl
@[simp] theorem respond_rspValid (c : RspCode) (d : Word24) : (respond c d s).rspValid = true := rfl
@[simp] theorem respond_rspWord (c : RspCode) (d : Word24) : (respond c d s).rspWord = rspOf c d := rfl
@[simp] theorem respond_outWe (c : RspCode) (d : Word24) : (respond c d s).outWe = s.outWe := rfl
@[simp] theorem respond_trace (c : RspCode) (d : Word24) : (respond c d s).trace = s.trace := rfl
@[simp] theorem respond_responses (c : RspCode) (d : Word24) : (respond c d s).responses = s.responses ++ [rspOf c d] := rfl
@[simp] theorem respond_inputs (c : RspCode) (d : Word24) : (respond c d s).inputs = s.inputs := rfl
@[simp] theorem respond_freeCtr (c : RspCode) (d : Word24) : (respond c d s).freeCtr = s.freeCtr := rfl

@[simp] theorem portWrite_cfg (v : Byte) : (portWrite v s).cfg = s.cfg := rfl
@[simp] theorem portWrite_phase (v : Byte) : (portWrite v s).phase = s.phase := rfl
@[simp] theorem portWrite_step (v : Byte) : (portWrite v s).step = s.step := rfl
@[simp] theorem portWrite_wsel (v : Byte) : (portWrite v s).wsel = s.wsel := rfl
@[simp] theorem portWrite_en (v : Byte) : (portWrite v s).en = s.en := rfl
@[simp] theorem portWrite_out (v : Byte) : (portWrite v s).out = v := rfl
@[simp] theorem portWrite_tcnt (v : Byte) : (portWrite v s).tcnt = s.tcnt := rfl
@[simp] theorem portWrite_rspValid (v : Byte) : (portWrite v s).rspValid = s.rspValid := rfl
@[simp] theorem portWrite_rspWord (v : Byte) : (portWrite v s).rspWord = s.rspWord := rfl
@[simp] theorem portWrite_outWe (v : Byte) : (portWrite v s).outWe = true := rfl
@[simp] theorem portWrite_trace (v : Byte) : (portWrite v s).trace = s.trace ++ [v] := rfl
@[simp] theorem portWrite_responses (v : Byte) : (portWrite v s).responses = s.responses := rfl
@[simp] theorem portWrite_inputs (v : Byte) : (portWrite v s).inputs = s.inputs := rfl
@[simp] theorem portWrite_freeCtr (v : Byte) : (portWrite v s).freeCtr = s.freeCtr := rfl

@[simp] theorem noResponse_cfg : (noResponse s).cfg = s.cfg := rfl
@[simp] theorem noResponse_phase : (noResponse s).phase = s.phase := rfl
@[simp] theorem noResponse_step : (noResponse s).step = s.step := rfl
@[simp] theorem noResponse_wsel : (noResponse s).wsel = s.wsel := rfl
@[simp] theorem noResponse_en : (noResponse s).en = s.en := rfl
@[simp] theorem noResponse_out : (noResponse s).out = s.out := rfl
@[simp] theorem noResponse_tcnt : (noResponse s).tcnt = s.tcnt := rfl
@[simp] theorem noResponse_rspValid : (noResponse s).rspValid = false := rfl
@[simp] theorem noResponse_rspWord : (noResponse s).rspWord = Config.freeRspWord s.freeCtr := rfl
@[simp] theorem noResponse_outWe : (noResponse s).outWe = s.outWe := rfl
@[simp] theorem noResponse_trace : (noResponse s).trace = s.trace := rfl
@[simp] theorem noResponse_responses : (noResponse s).responses = s.responses := rfl
@[simp] theorem noResponse_inputs : (noResponse s).inputs = s.inputs := rfl
@[simp] theorem noResponse_freeCtr : (noResponse s).freeCtr = s.freeCtr + 1 := rfl

@[simp] theorem popInputs_cfg : (popInputs s).cfg = s.cfg := rfl
@[simp] theorem popInputs_phase : (popInputs s).phase = s.phase := rfl
@[simp] theorem popInputs_step : (popInputs s).step = s.step := rfl
@[simp] theorem popInputs_wsel : (popInputs s).wsel = s.wsel := rfl
@[simp] theorem popInputs_en : (popInputs s).en = s.en := rfl
@[simp] theorem popInputs_out : (popInputs s).out = s.out := rfl
@[simp] theorem popInputs_tcnt : (popInputs s).tcnt = s.tcnt := rfl
@[simp] theorem popInputs_rspValid : (popInputs s).rspValid = s.rspValid := rfl
@[simp] theorem popInputs_rspWord : (popInputs s).rspWord = s.rspWord := rfl
@[simp] theorem popInputs_outWe : (popInputs s).outWe = s.outWe := rfl
@[simp] theorem popInputs_trace : (popInputs s).trace = s.trace := rfl
@[simp] theorem popInputs_responses : (popInputs s).responses = s.responses := rfl
@[simp] theorem popInputs_inputs : (popInputs s).inputs = s.inputs.tail := rfl
@[simp] theorem popInputs_freeCtr : (popInputs s).freeCtr = s.freeCtr := rfl

@[simp] theorem doReset_cfg : (doReset s).cfg = s.cfg := rfl
@[simp] theorem doReset_phase : (doReset s).phase = 0#24 := rfl
@[simp] theorem doReset_step : (doReset s).step = 0#24 := rfl
@[simp] theorem doReset_wsel : (doReset s).wsel = .sine := rfl
@[simp] theorem doReset_en : (doReset s).en = false := rfl
@[simp] theorem doReset_out : (doReset s).out = 0#8 := rfl
@[simp] theorem doReset_tcnt : (doReset s).tcnt = 0 := rfl
@[simp] theorem doReset_rspValid : (doReset s).rspValid = false := rfl
@[simp] theorem doReset_rspWord : (doReset s).rspWord = Config.freeRspWord s.freeCtr := rfl
@[simp] theorem doReset_outWe : (doReset s).outWe = false := rfl
@[simp] theorem doReset_trace : (doReset s).trace = s.trace := rfl
@[simp] theorem doReset_responses : (doReset s).responses = s.responses := rfl
@[simp] theorem doReset_inputs : (doReset s).inputs = s.inputs := rfl
@[simp] theorem doReset_freeCtr : (doReset s).freeCtr = s.freeCtr + 1 := rfl

@[simp] theorem respondError_eq (c : RspCode) : respondError c s = respond c 0#24 s := rfl

@[simp] theorem andThen_next (f : State → Host.Outcome State Fault Refusal) : andThen (.next s) f = f s := rfl

end Sys2Proof.Machine
end

