-- ==== Sys2Proof/Laws/Ops.lean ====
section
/-! SUPPORT. What each shared operation can do, said once: the engine's Tick, the registers a command can write, an edge. -/

namespace Sys2Proof.Machine

/-- A halted Tick is the identity (41_dds_engine.md R90). -/
theorem tick_halted {s : State} (h : s.en = false) : tick s = s := by simp [tick, h]

/-- A running Tick (41_dds_engine.md R90). -/
theorem tick_running {s : State} (h : s.en = true) :
    tick s = portWrite (romRead s.cfg.val.waveRom s.wsel (highByte (s.phase + s.step)))
      (setPhase (s.phase + s.step) s) := by
  simp [tick, h, advance]

section tickFrame
variable (s : State)

@[simp] theorem tick_cfg : (tick s).cfg = s.cfg := by unfold tick; split <;> rfl
@[simp] theorem tick_step : (tick s).step = s.step := by unfold tick; split <;> rfl
@[simp] theorem tick_wsel : (tick s).wsel = s.wsel := by unfold tick; split <;> rfl
@[simp] theorem tick_en : (tick s).en = s.en := by unfold tick; split <;> rfl
@[simp] theorem tick_tcnt : (tick s).tcnt = s.tcnt := by unfold tick; split <;> rfl
@[simp] theorem tick_rspValid : (tick s).rspValid = s.rspValid := by unfold tick; split <;> rfl
@[simp] theorem tick_rspWord : (tick s).rspWord = s.rspWord := by unfold tick; split <;> rfl
@[simp] theorem tick_responses : (tick s).responses = s.responses := by unfold tick; split <;> rfl
@[simp] theorem tick_inputs : (tick s).inputs = s.inputs := by unfold tick; split <;> rfl
@[simp] theorem tick_freeCtr : (tick s).freeCtr = s.freeCtr := by unfold tick; split <;> rfl

end tickFrame

/-- The index of the engine on natural numbers (41_dds_engine.md R95). -/
theorem highByte_toNat (p : Word24) : (highByte p).toNat = p.toNat / 2 ^ 16 := by
  have := p.isLt
  simp only [highByte, BitVec.extractLsb'_toNat, Nat.shiftRight_eq_div_pow]
  omega

/-- The six commands that write no register: NOP and the read-backs (10_state.md R33). -/
def answersOnly (i : Instr) : Prop :=
  i = .nop ∨ i = .rden ∨ i = .rdstep ∨ i = .rdph ∨ i = .rdw ∨ i = .rdout

/-- What a command does to the registers and which response it draws: the registers it may leave behind. -/
inductive CommandEffect (s : State) : Instr → RspCode → Word24 → State → Prop where
  | nothing (i : Instr) (d : Word24) (h : answersOnly i) : CommandEffect s i .ok d s
  | freqError (hz : Nat) (h : freqInRange s.cfg.val hz = false) : CommandEffect s (.setf hz) .errFreqRange 0#24 s
  | kindError (k : Nat) (h : kindOfNumber? k = none) : CommandEffect s (.selw k) .errWaveKind 0#24 s
  | setStep (hz : Nat) (h : freqInRange s.cfg.val hz = true) :
      CommandEffect s (.setf hz) .ok (BitVec.ofNat 24 (stepOf s.cfg.val hz))
        (setStep (BitVec.ofNat 24 (stepOf s.cfg.val hz)) s)
  | setWsel (n : Nat) (k : WaveKind) (h : kindOfNumber? n = some k) :
      CommandEffect s (.selw n) .ok (BitVec.ofNat 24 n) (setWsel k s)
  | setEn (i : Instr) (e : Bool) (h : i = .en ∧ e = true ∨ i = .dis ∧ e = false ∨ i = .tgl ∧ e = !s.en) :
      CommandEffect s i .ok (enData e) (setEn e s)
  | restart : CommandEffect s .rstph .ok 0#24 (setPhase 0#24 s)

/-- Every command ends in exactly one response, after one of the effects of `CommandEffect` (44_system.md R142). -/
theorem exec_effect (i : Instr) (s : State) :
    ∃ code data u, exec i s = .next (respond code data u) ∧ CommandEffect s i code data u := by
  cases i with
  | nop => exact ⟨_, _, _, rfl, .nothing _ _ (by simp [answersOnly])⟩
  | setf hz =>
    cases h : freqInRange s.cfg.val hz with
    | true => exact ⟨_, _, _, by simp only [exec, execSetf, h, if_true], .setStep hz h⟩
    | false =>
      exact ⟨_, _, _, by simp only [exec, execSetf, h, Bool.false_eq_true, if_false, respondError_eq], .freqError hz h⟩
  | selw n =>
    cases h : kindOfNumber? n with
    | some k => exact ⟨_, _, _, by simp only [exec, execSelw, h], .setWsel n k h⟩
    | none => exact ⟨_, _, _, by simp only [exec, execSelw, h, respondError_eq], .kindError n h⟩
  | en => exact ⟨_, _, _, rfl, .setEn _ true (.inl ⟨rfl, rfl⟩)⟩
  | dis => exact ⟨_, _, _, rfl, .setEn _ false (.inr (.inl ⟨rfl, rfl⟩))⟩
  | tgl => exact ⟨_, _, _, rfl, .setEn _ (!s.en) (.inr (.inr ⟨rfl, rfl⟩))⟩
  | rden => exact ⟨_, _, _, rfl, .nothing _ _ (by simp [answersOnly])⟩
  | rstph => exact ⟨_, _, _, rfl, .restart⟩
  | rdstep => exact ⟨_, _, _, rfl, .nothing _ _ (by simp [answersOnly])⟩
  | rdph => exact ⟨_, _, _, rfl, .nothing _ _ (by simp [answersOnly])⟩
  | rdw => exact ⟨_, _, _, rfl, .nothing _ _ (by simp [answersOnly])⟩
  | rdout => exact ⟨_, _, _, rfl, .nothing _ _ (by simp [answersOnly])⟩

/-- What any word on the command port does: a command's effect, or the ILL response with nothing written. -/
theorem acceptCommand_effect (w : Word) (s : State) :
    ∃ code data u, acceptCommand w s = .next (respond code data u) ∧
      ((∃ i, decode w = .ok i ∧ exec i s = .next (respond code data u) ∧ CommandEffect s i code data u) ∨
       ((∃ r, decode w = .error r) ∧ code = .errIllegalCmd ∧ data = 0#24 ∧ u = s)) := by
  unfold acceptCommand
  cases h : decode w with
  | ok i =>
    obtain ⟨code, data, u, he, hc⟩ := exec_effect i s
    exact ⟨code, data, u, he, .inl ⟨i, rfl, he, hc⟩⟩
  | error r => exact ⟨.errIllegalCmd, 0#24, s, rfl, .inr ⟨⟨r, rfl⟩, rfl, rfl, rfl⟩⟩

/-- A command other than through its one register and its response leaves the state alone (10_state.md R33). -/
theorem CommandEffect.frame {s u : State} {i : Instr} {code : RspCode} {data : Word24}
    (h : CommandEffect s i code data u) :
    u.cfg = s.cfg ∧ u.out = s.out ∧ u.tcnt = s.tcnt ∧ u.rspValid = s.rspValid ∧ u.rspWord = s.rspWord ∧
    u.outWe = s.outWe ∧ u.trace = s.trace ∧ u.responses = s.responses ∧ u.inputs = s.inputs ∧
    u.freeCtr = s.freeCtr := by
  cases h <;> simp

/-- An effect with a code other than OK has data 0 and writes no register (60_exceptions.md R152). -/
theorem CommandEffect.error {s u : State} {i : Instr} {code : RspCode} {data : Word24}
    (h : CommandEffect s i code data u) (hc : code ≠ .ok) : data = 0#24 ∧ u = s := by
  cases h <;> simp_all

/-- The edge with `rst` = 1 (20_memory.md R54). -/
theorem step_reset {s : State} (h : (pinsNow s).rst = true) : step s = .next (doReset (popInputs s)) := by
  simp [step, risingEdge, h]

/-- The edge with `rst` = 0 and a word presented (20_memory.md R54). -/
theorem step_command {s : State} (hr : (pinsNow s).rst = false) (hv : (pinsNow s).cmdValid = true) :
    step s = andThen (acceptCommand (pinsNow s).cmdWord (popInputs s)) fun u => .next (tickPart u) := by
  simp [step, risingEdge, commandPart, hr, hv]

/-- The edge with `rst` = 0 and nothing presented (20_memory.md R54). -/
theorem step_idle {s : State} (hr : (pinsNow s).rst = false) (hv : (pinsNow s).cmdValid = false) :
    step s = .next (tickPart (noResponse (popInputs s))) := by
  simp [step, risingEdge, commandPart, hr, hv]

section tickPartFrame
variable (s : State)

@[simp] theorem tickPart_cfg : (tickPart s).cfg = s.cfg := by unfold tickPart; split <;> simp
@[simp] theorem tickPart_step : (tickPart s).step = s.step := by unfold tickPart; split <;> simp
@[simp] theorem tickPart_wsel : (tickPart s).wsel = s.wsel := by unfold tickPart; split <;> simp
@[simp] theorem tickPart_en : (tickPart s).en = s.en := by unfold tickPart; split <;> simp
@[simp] theorem tickPart_rspValid : (tickPart s).rspValid = s.rspValid := by unfold tickPart; split <;> simp
@[simp] theorem tickPart_rspWord : (tickPart s).rspWord = s.rspWord := by unfold tickPart; split <;> simp
@[simp] theorem tickPart_responses : (tickPart s).responses = s.responses := by unfold tickPart; split <;> simp
@[simp] theorem tickPart_inputs : (tickPart s).inputs = s.inputs := by unfold tickPart; split <;> simp
@[simp] theorem tickPart_freeCtr : (tickPart s).freeCtr = s.freeCtr := by unfold tickPart; split <;> simp

end tickPartFrame

/-- An edge does one of three things, and nothing stops it (20_memory.md R54, 60_exceptions.md R167). -/
theorem step_cases (s : State) :
    ((pinsNow s).rst = true ∧ step s = .next (doReset (popInputs s))) ∨
    ((pinsNow s).rst = false ∧ (pinsNow s).cmdValid = false ∧
      step s = .next (tickPart (noResponse (popInputs s)))) ∨
    ((pinsNow s).rst = false ∧ (pinsNow s).cmdValid = true ∧ ∃ code data u,
      step s = .next (tickPart (respond code data u)) ∧
      ((∃ i, decode (pinsNow s).cmdWord = .ok i ∧ exec i (popInputs s) = .next (respond code data u) ∧
          CommandEffect (popInputs s) i code data u) ∨
       ((∃ r, decode (pinsNow s).cmdWord = .error r) ∧ code = .errIllegalCmd ∧ data = 0#24 ∧ u = popInputs s))) := by
  cases hr : (pinsNow s).rst with
  | true => exact .inl ⟨rfl, step_reset hr⟩
  | false =>
    cases hv : (pinsNow s).cmdValid with
    | false => exact .inr (.inl ⟨rfl, rfl, step_idle hr hv⟩)
    | true =>
      obtain ⟨code, data, u, ha, hc⟩ := acceptCommand_effect (pinsNow s).cmdWord (popInputs s)
      exact .inr (.inr ⟨rfl, rfl, code, data, u, by rw [step_command hr hv, ha]; rfl, hc⟩)

end Sys2Proof.Machine
end

