-- ==== Sys2Proof/Laws/Edge.lean ====
section
/-! SUPPORT. What the prescaler's half of an edge does, and how runs of edges unfold. -/

namespace Sys2Proof.Machine

/-- Everything the prescaler's half of an edge does besides its frame (20_memory.md R54). -/
theorem tickPart_spec (s : State) :
    (tickPart s).tcnt = (if tickDue s then 0 else s.tcnt + 1) ∧
    (tickPart s).outWe = (tickDue s && s.en) ∧
    (tickPart s).phase = (if tickDue s && s.en then s.phase + s.step else s.phase) ∧
    (tickPart s).out = (if tickDue s && s.en then
      romRead s.cfg.val.waveRom s.wsel (highByte (s.phase + s.step)) else s.out) ∧
    (tickPart s).trace = s.trace ++ (if tickDue s && s.en then
      [romRead s.cfg.val.waveRom s.wsel (highByte (s.phase + s.step))] else []) := by
  cases hd : tickDue s <;> cases he : s.en <;> simp [tickPart, hd, tick, he, advance]

/-- The command's half of an edge leaves the prescaler, the inputs and the configuration alone. -/
theorem command_clock {w : Word} {s u : State} {code : RspCode} {data : Word24}
    (h : (∃ i, decode w = .ok i ∧ exec i s = .next (respond code data u) ∧ CommandEffect s i code data u) ∨
      ((∃ r, decode w = .error r) ∧ code = .errIllegalCmd ∧ data = 0#24 ∧ u = s)) :
    u.cfg = s.cfg ∧ u.tcnt = s.tcnt ∧ u.inputs = s.inputs := by
  rcases h with ⟨i, _, _, he⟩ | ⟨_, _, _, rfl⟩
  · exact ⟨he.frame.1, he.frame.2.2.1, he.frame.2.2.2.2.2.2.2.2.1⟩
  · exact ⟨rfl, rfl, rfl⟩

/-- The configuration, the inputs and the prescaler after an edge (20_memory.md R54). -/
theorem step_clock {s t : State} (h : step s = .next t) :
    t.cfg = s.cfg ∧ t.inputs = s.inputs.tail ∧ t.tcnt = nextTcnt s.cfg.val.tickCycles s.tcnt (pinsNow s) := by
  rcases step_cases s with ⟨hr, hs⟩ | ⟨hr, _, hs⟩ | ⟨hr, _, c, d, u, hs, hc⟩ <;> rw [hs] at h <;> cases h
  · simp [nextTcnt, hr]
  · simp [nextTcnt, hr, (tickPart_spec _).1, tickDue]
  · obtain ⟨h1, h2, h3⟩ := command_clock hc
    simp [nextTcnt, hr, (tickPart_spec _).1, tickDue, h1, h2, h3]

/-- A run of n + 1 edges is one edge and a run of n. -/
theorem run_succ {n : Nat} {s t : State} (h : step s = .next t) :
    Sys2Proof.core.run (n + 1) s = Sys2Proof.core.run n t := by
  have hc : Sys2Proof.core.step s = .next t := h
  simp only [Host.Core.run]
  rw [hc]

end Sys2Proof.Machine
end

