-- ==== Sys2Proof/Laws/Frequency.lean ====
section
/-! SUPPORT. The conversion from hertz to a step, in every well-formed configuration. -/

namespace Sys2Proof.Machine

/-- The seven conditions of 00_scope.md R9, taken apart. -/
theorem hwConfig_conditions (c : HwConfig) :
    1 ≤ c.val.clockHz ∧ 1 ≤ c.val.tickCycles ∧ c.val.minFreq ≤ c.val.maxFreq ∧ c.val.maxFreq ≤ 2 ^ 24 - 1 ∧
    stepOf c.val c.val.maxFreq ≤ 2 ^ 24 - 1 ∧ 2 ^ c.val.calFrac ≤ calQ c.val ∧
    Memory.wf c.val.waveRom = true ∧ twoLevels (romTable c.val.waveRom .square) = true := by
  have h := c.property
  simp only [Config.wf, Config.wf1, Config.wf2, Config.wf3, Config.wf4, Config.wf5, Config.wf6, Config.wf7,
    Bool.and_eq_true, decide_eq_true_eq] at h
  tauto

/-- A larger frequency never has a smaller step. -/
theorem stepOf_le {c : Config} {f g : Nat} (h : f ≤ g) : stepOf c f ≤ stepOf c g :=
  Nat.div_le_div_right (Nat.mul_le_mul_right _ h)

/-- The step of an accepted frequency fits STEP (00_scope.md R9 WF4). -/
theorem stepOf_lt (c : HwConfig) {hz : Nat} (h : freqInRange c.val hz = true) : stepOf c.val hz < 2 ^ 24 := by
  simp only [freqInRange, Bool.and_eq_true, decide_eq_true_eq] at h
  have := stepOf_le (c := c.val) h.2
  have := (hwConfig_conditions c).2.2.2.2.1
  omega

/-- So SETF installs the whole step (42_frequency_controller.md R113). -/
theorem stepOf_toNat (c : HwConfig) {hz : Nat} (h : freqInRange c.val hz = true) :
    (BitVec.ofNat 24 (stepOf c.val hz)).toNat = stepOf c.val hz := by
  rw [BitVec.toNat_ofNat, Nat.mod_eq_of_lt (stepOf_lt c h)]

end Sys2Proof.Machine
end

