-- ==== Sys2Proof/Laws/Rom.lean ====
section
/-! SUPPORT. The ROM's canonical form: the default ROM has it, and building an instance's tables keeps it. -/

namespace Sys2Proof.Machine

theorem wf_nil : Memory.wf [] = true := rfl

theorem kindNumber_lt (k : WaveKind) : kindNumber k < 5 := by cases k <;> decide

@[simp] theorem kindOfNumber_kindNumber (k : WaveKind) : kindOfNumber? (kindNumber k) = some k := by cases k <;> rfl

theorem kindOfNumber_eq_some {n : Nat} {k : WaveKind} (h : kindOfNumber? n = some k) : n = kindNumber k := by
  unfold kindOfNumber? at h
  split at h <;> simp at h <;> subst h <;> rfl

theorem kindOfNumber_eq_none {n : Nat} : kindOfNumber? n = none ↔ 4 < n := by
  constructor
  · intro h
    by_contra hn
    have : n < 5 := by omega
    interval_cases n <;> simp [kindOfNumber?] at h
  · intro h
    unfold kindOfNumber?
    split <;> first | omega | rfl

/-- Raising the lower bound asks more. -/
theorem wfFrom_le {lo lo' : Nat} {m : Memory} (hl : lo ≤ lo') (h : wfFrom lo' m = true) : wfFrom lo m = true := by
  cases m with
  | nil => rfl
  | cons c m =>
    simp only [wfFrom, Bool.and_eq_true, decide_eq_true_eq] at h ⊢
    exact ⟨⟨by omega, h.1.2⟩, h.2⟩

theorem romCells_wf (f : WaveKind → Byte → Byte) (n : Nat) : ∀ lo, wfFrom lo (romCells f lo n) = true := by
  induction n with
  | zero => intro lo; rfl
  | succ n ih =>
    intro lo
    have hup := wfFrom_le (Nat.le_succ lo) (ih (lo + 1))
    unfold romCells
    cases hk : kindOfNumber? (lo / 256) with
    | none => simpa using hup
    | some k =>
      by_cases hb : f k (BitVec.ofNat 8 (lo % 256)) = defaultSample k (BitVec.ofNat 8 (lo % 256))
      · simpa [hb] using hup
      · simp [hb, wfFrom, cellOk, hk, ih (lo + 1)]

/-- Every instance's tables are in canonical form. -/
theorem romOfTable_wf (f : WaveKind → Byte → Byte) : Memory.wf (romOfTable f) = true := romCells_wf f 1280 0

/-- An address below the bound is not listed. -/
theorem lookup_of_lt {m : Memory} : ∀ {lo a : Nat}, wfFrom lo m = true → a < lo → m.lookup a = none := by
  induction m with
  | nil => intros; rfl
  | cons c m ih =>
    intro lo a h ha
    simp only [wfFrom, Bool.and_eq_true, decide_eq_true_eq] at h
    have hne : (a == c.1) = false := by simp; omega
    obtain ⟨x, y⟩ := c
    simp only [List.lookup_cons, hne]
    exact ih h.2 (by simp at h; omega)

/-- Entry i of table k stands at an address of table k. -/
theorem romAddr_div (k : WaveKind) (i : Byte) : romAddr k i / 256 = kindNumber k := by
  have := i.isLt; unfold romAddr; omega

theorem romAddr_mod (k : WaveKind) (i : Byte) : romAddr k i % 256 = i.toNat := by
  have := i.isLt; unfold romAddr; omega

theorem romAddr_lt (k : WaveKind) (i : Byte) : romAddr k i < 1280 := by
  have := i.isLt; have := kindNumber_lt k; unfold romAddr; omega

end Sys2Proof.Machine
end

