-- ==== Sys2Proof/Tests/Slice0.lean ====
section
/-! SUPPORT. Tests with expected results from the spec (95_test_vectors.md V1 to V64 and the rules' examples), the smoke test of
every well-formedness check, and one witness for every statement that has hypotheses. -/

namespace Sys2Proof.Tests
open Sys2Proof Sys2Proof.Machine

/-- A state of the instance T0 written as 95_test_vectors.md writes it: PHASE STEP WSEL EN OUT. -/
def st (phase step : Word24) (wsel : WaveKind) (en : Bool) (out : Byte) : State :=
  { State.reset with phase := phase, step := step, wsel := wsel, en := en, out := out }

/-- What a test compares: the five registers, the response registers, the strobe and the trace. -/
structure Seen where
  regs     : Regs
  rspValid : Bool
  rspWord  : Word
  outWe    : Bool
  trace    : List Byte
deriving DecidableEq, Repr

/-- That of an outcome. -/
def seen (o : Host.Outcome State Fault Refusal) : Option Seen :=
  match o with
  | .next s => some ⟨s.regs, s.rspValid, s.rspWord, s.outWe, s.trace⟩
  | _ => none

/-- The registers as `st` writes them. -/
def rg (phase step : Word24) (wsel : WaveKind) (en : Bool) (out : Byte) : Regs := ⟨phase, step, wsel, en, out⟩

/-! ## Decoding (V1 to V12, R63) and encoding -/

theorem test_decode_nop : decode 0x00000000#32 = .ok .nop := by decide
theorem test_decode_setf : decode 0x010001F4#32 = .ok (.setf 500) := by decide
theorem test_decode_setf_max : decode 0x01FFFFFF#32 = .ok (.setf 16777215) := by decide
theorem test_decode_selw : decode 0x02000004#32 = .ok (.selw 4) := by decide
theorem test_decode_selw_max : decode 0x02FFFFFF#32 = .ok (.selw 16777215) := by decide
theorem test_decode_en : decode 0x03000000#32 = .ok .en := by decide
theorem test_decode_dis : decode 0x04000000#32 = .ok .dis := by decide
theorem test_decode_tgl : decode 0x05000000#32 = .ok .tgl := by decide
theorem test_decode_rden : decode 0x06000000#32 = .ok .rden := by decide
theorem test_decode_rstph : decode 0x07000000#32 = .ok .rstph := by decide
theorem test_decode_rdstep : decode 0x08000000#32 = .ok .rdstep := by decide
theorem test_decode_rdph : decode 0x09000000#32 = .ok .rdph := by decide
theorem test_decode_rdw : decode 0x0A000000#32 = .ok .rdw := by decide
theorem test_decode_rdout : decode 0x0B000000#32 = .ok .rdout := by decide
theorem test_decode_first_reserved : decode 0x0C000000#32 = .error (.reservedOpcode 0x0C#8) := by decide
theorem test_decode_all_ones : decode 0xFFFFFFFF#32 = .error (.reservedOpcode 0xFF#8) := by decide
theorem test_decode_en_operand : decode 0x03000001#32 = .error (.operandMustBeZero 0x03#8 1#24) := by decide
theorem test_decode_nop_operand : decode 0x00000001#32 = .error (.operandMustBeZero 0x00#8 1#24) := by decide
theorem test_table_word_selw : decodeTableWord 32 0x02000004 = some (.selw 4) := by decide
theorem test_table_word_illegal : decodeTableWord 32 0x03000001 = none := by decide
theorem test_encode : encode (.setf 100000) = 0x010186A0#32 ∧ encode (.selw 2) = 0x02000002#32 ∧
    encode .rdph = 0x09000000#32 := by decide
theorem test_ill_reserved_operandless : decode 0xFF000000#32 = .error (.reservedOpcode 0xFF#8) := by decide

/-! ## The configuration's defaults (R8; 93_implementation_defined.md U3, U4): CAL_Q worked out by hand for a clock of 2^20 Hz -/

theorem test_config_defaults : let c : Config := { clockHz := 2 ^ 20, minFreq := 1, maxFreq := 100000 }
    c.tickCycles = 9 ∧ c.calFrac = 16 ∧ c.waveRom = [] ∧ calQ c = 144 * 65536 ∧ c.wf = true := by decide +kernel

/-! ## Well-formedness: an ill-formed term for each check -/

theorem test_wf_setf_bound : (Instr.setf 16777215).wf = true ∧ (Instr.setf 16777216).wf = false := by decide
theorem test_wf_selw_bound : (Instr.selw 16777215).wf = true ∧ (Instr.selw 16777216).wf = false := by decide
theorem test_wf1_clock : let c := { Config.t0 with clockHz := 0 }; c.wf1 = false ∧ c.wf = false := by decide +kernel
theorem test_wf1_cycles : let c := { Config.t0 with tickCycles := 0 }; c.wf1 = false ∧ c.wf = false := by decide +kernel
theorem test_wf2 : let c := { Config.t0 with minFreq := 1000001 }; c.wf2 = false ∧ c.wf = false := by decide +kernel
theorem test_wf3 : let c := { Config.t0 with maxFreq := 16777216 }; c.wf3 = false ∧ c.wf = false := by decide +kernel
theorem test_wf4 : let c := { Config.t0 with maxFreq := 3333342 }; c.wf4 = false ∧ c.wf = false := by decide +kernel
theorem test_wf5 : let c := { Config.t0 with clockHz := 200000000 }; c.wf5 = false ∧ c.wf = false := by decide +kernel
theorem test_wf6_hole : let c := { Config.t0 with waveRom := [(1280, 1#8)] }; c.wf6 = false ∧ c.wf = false := by
  decide +kernel
theorem test_wf6_order : let c := { Config.t0 with waveRom := [(5, 1#8), (4, 1#8)] }; c.wf6 = false ∧ c.wf = false := by
  decide +kernel
theorem test_wf6_default : let c := { Config.t0 with waveRom := [(0, 128#8)] }; c.wf6 = false ∧ c.wf = false := by
  decide +kernel
theorem test_wf7_three_levels : let c := { Config.t0 with waveRom := [(1024, 7#8)] }; c.wf7 = false ∧ c.wf = false := by
  decide +kernel
theorem test_wf_other_rom : { Config.t0 with waveRom := [(0, 7#8), (1023, 9#8)] }.wf = true := by decide +kernel

/-! ## The ROM (R48 to R50) and the conversion (R111, V14 to V20, section 3 and E4) -/

theorem test_rom_sine : (romTable [] .sine).length = 256 ∧ ((romTable [] .sine).map BitVec.toNat).sum = 32641 ∧
    romRead [] .sine 0#8 = 128#8 ∧ romRead [] .sine 64#8 = 255#8 ∧ romRead [] .sine 192#8 = 0#8 ∧
    romRead [] .sine 255#8 = 124#8 := by decide +kernel
theorem test_rom_triangle : ((romTable [] .triangle).map BitVec.toNat).sum = 32640 ∧
    romRead [] .triangle 127#8 = 254#8 ∧ romRead [] .triangle 128#8 = 255#8 ∧ romRead [] .triangle 255#8 = 1#8 := by
  decide +kernel
theorem test_rom_square : romRead [] .square 127#8 = 255#8 ∧ romRead [] .square 128#8 = 0#8 ∧
    romRead [] .reverseSawtooth 0x12#8 = 0xED#8 := by decide
theorem test_rom_listed : romRead [(0, 7#8), (1023, 9#8)] .sine 0#8 = 7#8 ∧
    romRead [(0, 7#8), (1023, 9#8)] .reverseSawtooth 255#8 = 9#8 ∧ memRead [] 1280 = none := by decide
theorem test_calQ : calQ Config.t0 = 329853 := by decide
theorem test_stepOf : [2, 19, 30, 31, 51, 407, 499, 501, 10000, 104167].map (stepOf Config.t0) =
    [10, 95, 150, 156, 256, 2048, 2511, 2521, 50331, 524288] := by decide

/-! ## Commands (V13 to V40) -/

theorem test_setf_low : seen (exec (.setf 0) (st 1 0xABC .reverseSawtooth true 5)) =
    some ⟨rg 1 0xABC .reverseSawtooth true 5, true, 0x01000000#32, false, []⟩ := by decide
theorem test_setf_500 : seen (exec (.setf 500) (st 1 0xABC .reverseSawtooth true 5)) =
    some ⟨rg 1 0x9D4 .reverseSawtooth true 5, true, 0x000009D4#32, false, []⟩ := by decide
theorem test_setf_bounds : seen (exec (.setf 1) State.reset) = some ⟨rg 0 5 .sine false 0, true, 5#32, false, []⟩ ∧
    seen (exec (.setf 1000000) State.reset) = some ⟨rg 0 0x4CCCC5 .sine false 0, true, 0x004CCCC5#32, false, []⟩ ∧
    seen (exec (.setf 1000001) State.reset) = some ⟨rg 0 0 .sine false 0, true, 0x01000000#32, false, []⟩ := by
  decide
theorem test_setf_product_over_32_bits : seen (exec (.setf 13021) State.reset) =
    some ⟨rg 0 0x10000 .sine false 0, true, 0x00010000#32, false, []⟩ := by decide
theorem test_selw_square : seen (exec (.selw 4) (st 0 0 .reverseSawtooth false 0)) =
    some ⟨rg 0 0 .square false 0, true, 0x00000004#32, false, []⟩ := by decide
theorem test_selw_256 : seen (exec (.selw 256) (st 0 0 .reverseSawtooth false 0)) =
    some ⟨rg 0 0 .reverseSawtooth false 0, true, 0x02000000#32, false, []⟩ := by decide
theorem test_selw_5 : seen (exec (.selw 5) (st 0 0 .reverseSawtooth false 0)) =
    some ⟨rg 0 0 .reverseSawtooth false 0, true, 0x02000000#32, false, []⟩ := by decide
theorem test_gate : [Instr.en, .dis, .tgl, .rden].map (fun i => seen (exec i (st 1 2 .square true 3))) =
    [some ⟨rg 1 2 .square true 3, true, 1#32, false, []⟩, some ⟨rg 1 2 .square false 3, true, 0#32, false, []⟩,
     some ⟨rg 1 2 .square false 3, true, 0#32, false, []⟩, some ⟨rg 1 2 .square true 3, true, 1#32, false, []⟩] := by
  decide
theorem test_tgl_from_halted : seen (exec .tgl (st 1 2 .square false 3)) =
    some ⟨rg 1 2 .square true 3, true, 1#32, false, []⟩ := by decide
theorem test_rstph_and_reads :
    [Instr.rstph, .rdstep, .rdph, .rdw, .rdout, .nop].map
      (fun i => seen (exec i (st 0x123456 0x9D4 .reverseSawtooth true 0xED))) =
    [some ⟨rg 0 0x9D4 .reverseSawtooth true 0xED, true, 0x00000000#32, false, []⟩,
     some ⟨rg 0x123456 0x9D4 .reverseSawtooth true 0xED, true, 0x000009D4#32, false, []⟩,
     some ⟨rg 0x123456 0x9D4 .reverseSawtooth true 0xED, true, 0x00123456#32, false, []⟩,
     some ⟨rg 0x123456 0x9D4 .reverseSawtooth true 0xED, true, 0x00000003#32, false, []⟩,
     some ⟨rg 0x123456 0x9D4 .reverseSawtooth true 0xED, true, 0x000000ED#32, false, []⟩,
     some ⟨rg 0x123456 0x9D4 .reverseSawtooth true 0xED, true, 0x00000000#32, false, []⟩] := by decide

/-! ## Ticks (V46 to V59) -/

theorem test_tick_index_after_add : (tick (st 0 0x10000 .sine true 0)).regs = rg 0x10000 0x10000 .sine true 0x83 := by
  decide
theorem test_tick_wrap : (tick (st 0xFFF000 0x2000 .sawtooth true 0xFF)).regs = rg 0x1000 0x2000 .sawtooth true 0 := by
  decide
theorem test_tick_carry_into_index : (tick (st 0xFFFF 1 .sawtooth true 0)).regs = rg 0x10000 1 .sawtooth true 1 := by decide
theorem test_tick_square_falls : (tick (st 0x7F0000 0x10000 .square true 0xFF)).regs =
    rg 0x800000 0x10000 .square true 0 := by decide
theorem test_tick_halted : tick (st 0x123456 0x9D4 .triangle false 0x55) = st 0x123456 0x9D4 .triangle false 0x55 := by
  decide
theorem test_tick_step_zero : (tick (st 0x123456 0 .reverseSawtooth true 0x55)).trace = [0xED#8] := by decide
theorem test_tick_largest : (tick (st 0xFFFFFF 0xFFFFFF .sawtooth true 0)).regs =
    rg 0xFFFFFE 0xFFFFFF .sawtooth true 0xFF := by decide

/-! ## Edges (V60 to V64) -/

/-- A state at TCNT = 8 with a word on the command pins and `rst` as given. -/
def atTick (s : State) (rst : Bool) (w : Word) : State :=
  { s with tcnt := 8, inputs := [{ rst := rst, cmdValid := true, cmdWord := w }] }

theorem test_edge_reset_beats_command :
    ∃ t, step (atTick (st 0xABCDEF 0x123456 .square true 0x7F) true 0x03000000#32) = .next t ∧
      t.regs = rg 0 0 .sine false 0 ∧ t.tcnt = 0 ∧ t.rspValid = false ∧ t.outWe = false ∧ t.trace = [] ∧
      t.responses = [] := ⟨_, rfl, rfl, rfl, rfl, rfl, rfl, rfl⟩
theorem test_edge_setf_before_tick : seen (step (atTick (st 0x20000 0x10000 .sawtooth true 2) false 0x010196E7#32)) =
    some ⟨rg 0xA0000 0x80000 .sawtooth true 0x0A, true, 0x00080000#32, true, [0x0A#8]⟩ := by decide
theorem test_edge_dis_before_tick : seen (step (atTick (st 0x10000 0x10000 .sawtooth true 1) false 0x04000000#32)) =
    some ⟨rg 0x10000 0x10000 .sawtooth false 1, true, 0x00000000#32, false, []⟩ := by decide
theorem test_edge_en_before_tick : seen (step (atTick (st 0x10000 0x10000 .sawtooth false 1) false 0x03000000#32)) =
    some ⟨rg 0x20000 0x10000 .sawtooth true 2, true, 0x00000001#32, true, [2#8]⟩ := by decide
theorem test_edge_illegal : seen (step (atTick (st 0 0 .sine false 0) false 0x03000001#32)) =
    some ⟨rg 0 0 .sine false 0, true, 0x03000000#32, false, []⟩ := by decide
theorem test_edge_idle_counts : (match step State.reset with
      | .next t => (t.tcnt, t.rspValid, t.outWe)
      | _ => (0, true, true)) = (1, false, false) := by decide
theorem test_placed_word : seen (step (State.reset.withFetchWord 32 0x02000003)) =
    some ⟨rg 0 0 .reverseSawtooth false 0, true, 0x00000003#32, false, []⟩ := by decide

/-! ## The assembler (R72, R73) -/

theorem test_asm_kind_name : assembleLine ['S','E','L','W',' ','S','A','W'] = .ok [.cmd 0x02000002#32] := by decide
theorem test_asm_comment : assembleLine ['S','E','T','F',' ','5','0','0',' ',';','x'] = .ok [.cmd 0x010001F4#32] := by decide
theorem test_asm_mute_unmute : assembleLine ['M','U','T','E'] = .ok [.cmd 0x04000000#32] ∧
    assembleLine ['U','N','M','U','T','E'] = .ok [.cmd 0x03000000#32] := by decide
theorem test_asm_directives : assembleLine ['R','E','S','E','T'] = .ok [.reset] ∧
    assembleLine ['T','I','C','K',' ','3'] = .ok [.tick, .tick, .tick] := by decide
theorem test_asm_word : assembleLine ['.','w','o','r','d',' ','0','x','0','3','0','0','0','0','0','1'] =
    .ok [.cmd 0x03000001#32] := by decide
theorem test_asm_too_large : assembleLine ['S','E','T','F',' ','1','6','7','7','7','2','1','6'] =
    .error .operandTooLarge := by decide
theorem test_asm_operand_not_taken : assembleLine ['E','N',' ','1'] = .error .operandNotTaken := by decide
theorem test_asm_script : assembleScript ['T','G','L','\n','T','I','C','K'] = .ok [.cmd 0x05000000#32, .tick] := by
  decide

/-! ## Witnesses: for each statement with hypotheses, a state and operands that meet all of them -/

theorem witness_DecodeInvertsEncode : (Instr.setf 16777215).wf = true ∧ (Instr.selw 0).wf = true := by decide
theorem witness_EncodeInvertsDecode : decode 0x02FFFFFF#32 = .ok (.selw 16777215) := by decide
theorem witness_OpcodeRowsSelectTheirCommands : (⟨"SETF", 0xFF000000#32, 0x01000000#32⟩ : OpcodeRow) ∈ opcodeTable ∧
    ∀ row ∈ opcodeTable, 0x0C000000#32 &&& row.mask ≠ row.value := by decide
theorem witness_ReservedOpcodesAreIllegal : 0x0C ≤ (0x0C000000#32 : Word).toNat / 2 ^ 24 ∧
    0x0C ≤ (0xFFFFFFFF#32 : Word).toNat / 2 ^ 24 := by decide
theorem witness_NonZeroOperandIsIllegal :
    (0x0B000001#32 : Word).toNat / 2 ^ 24 ∈ [0x00, 0x03, 0x04, 0x05, 0x06, 0x07, 0x08, 0x09, 0x0A, 0x0B] ∧
    (0x0B000001#32 : Word).toNat % 2 ^ 24 ≠ 0 := by decide
/-- The bounds themselves, one below and one above. -/
theorem witness_SetfInstallsTheStepOrRejects :
    (State.reset.cfg.val.minFreq ≤ 1 ∧ 1 ≤ State.reset.cfg.val.maxFreq) ∧
    (State.reset.cfg.val.minFreq ≤ 1000000 ∧ 1000000 ≤ State.reset.cfg.val.maxFreq) ∧
    0 < State.reset.cfg.val.minFreq ∧ State.reset.cfg.val.maxFreq < 1000001 := by decide
theorem witness_SelwSelectsOrRejects : (WaveKind.sine, 0) ∈ kindsByNumber ∧ (WaveKind.square, 4) ∈ kindsByNumber ∧ 4 < 5 := by
  decide
theorem witness_GateCommandsWriteEnAlone : State.reset.en = false ∧ (st 0 0 .sine true 0).en = true := by decide
theorem witness_RstphRestartsThePhase : (st 5 0x10000 .sine true 0).en = true := by decide
theorem witness_ReadBacksAnswerAndWriteNothing : (WaveKind.square, 4) ∈ kindsByNumber ∧
    (st 0 0 .square true 0).wsel = .square := by decide
theorem witness_ErrorsWriteNothing :
    acceptCommand 0x02000005#32 State.reset = .next (answered State.reset 0x02000000#32) ∧
    (answered State.reset 0x02000000#32).rspWord.toNat / 2 ^ 24 ≠ 0 := ⟨rfl, by decide⟩
theorem witness_ErrorsHaveTheirCauses :
    acceptCommand 0x01000000#32 State.reset = .next (answered State.reset 0x01000000#32) ∧
    acceptCommand 0x02000005#32 State.reset = .next (answered State.reset 0x02000000#32) ∧
    acceptCommand 0x0C000000#32 State.reset = .next (answered State.reset 0x03000000#32) ∧
    acceptCommand 0x02000004#32 State.reset = .next (answered { State.reset with wsel := .square } 4#32) :=
  ⟨rfl, rfl, rfl, rfl⟩
theorem witness_CommandsDependOnRegistersOnly :
    State.reset.cfg = { State.reset with tcnt := 3, trace := [1#8] }.cfg ∧
    State.reset.regs = { State.reset with tcnt := 3, trace := [1#8] }.regs ∧
    acceptCommand 0x03000000#32 State.reset = .next (answered { State.reset with en := true } 1#32) ∧
    acceptCommand 0x03000000#32 { State.reset with tcnt := 3, trace := [1#8] } =
      .next (answered { State.reset with tcnt := 3, trace := [1#8], en := true } 1#32) := ⟨rfl, rfl, rfl, rfl⟩
theorem witness_TickAdvancesThenEmits : State.reset.en = false ∧ (st 0xFFFFFF 1 .sine true 0).en = true := by decide
theorem witness_TicksHaveClosedForm : (st 0xFFFFFF 1 .sine true 0).en = true := by decide
/-- With the wrap clause at STEP 0 (period 1, no wrap) and at the STEP with the shortest other period (2 Ticks, one wrap). -/
theorem witness_PhasePeriodIsExact : (st 0x123456 0 .sine true 0).en = true ∧
    2 ^ 24 / Nat.gcd (0#24 : Word24).toNat (2 ^ 24) = 1 ∧ wrapCount (st 0x123456 0 .sine true 0) 1 = 0 ∧
    (st 0x900000 0x800000 .sine true 0).en = true ∧ 2 ^ 24 / Nat.gcd (0x800000#24 : Word24).toNat (2 ^ 24) = 2 ∧
    wrapCount (st 0x900000 0x800000 .sine true 0) 2 = 1 := by decide +kernel
/-- A step that does not divide 2^24 and one that does: cycles of 3 and of 2 Ticks. -/
theorem witness_CyclesLastFloorOrCeiling :
    let s := st 0 0x600000 .sine true 0
    let d := st 0 0x800000 .sine true 0
    s.en = true ∧ 0 < s.step.toNat ∧ cycleFrom s 2 3 ∧
    d.en = true ∧ 0 < d.step.toNat ∧ cycleFrom d 1 2 ∧ d.step.toNat ∣ 2 ^ 24 := by
  refine ⟨rfl, by decide, ⟨by decide, by unfold wrapsAt; decide, by unfold wrapsAt; decide, ?_⟩, rfl, by decide,
    ⟨by decide, by unfold wrapsAt; decide, by unfold wrapsAt; decide, ?_⟩, by decide⟩
  · intro j h0 hj
    interval_cases j <;> unfold wrapsAt <;> decide
  · intro j h0 hj
    interval_cases j
    unfold wrapsAt
    decide

/-- The state whose next waveform cycle is 256 Ticks long: PHASE 0xFF0000, STEP 2^16. -/
def wide : State := st 0xFF0000 0x10000 .sine true 0

theorem wide_iterate (n : Nat) : (tick^[n] wide).en = true ∧ (tick^[n] wide).step = 0x10000#24 ∧
    (tick^[n] wide).phase.toNat = (0xFF0000 + n * 0x10000) % 2 ^ 24 := by
  induction n with
  | zero => decide
  | succ n ih =>
    obtain ⟨he, hs, hp⟩ := ih
    rw [Function.iterate_succ_apply', tick_running he]
    refine ⟨by simpa using he, by simpa using hs, ?_⟩
    simp only [portWrite_phase, setPhase_phase, BitVec.toNat_add, hp, hs]
    simp
    omega

theorem witness_SmallStepsCoverTheTable :
    wide.en = true ∧ 0 < wide.step.toNat ∧ wide.step.toNat ≤ 2 ^ 16 ∧ cycleFrom wide 0 256 := by
  have hw : wide.step.toNat = 0x10000 := by decide
  refine ⟨rfl, by decide, by decide, by decide, ?_, ?_, ?_⟩
  · simp only [wrapsAt, (wide_iterate _).2.2, hw]
    decide
  · simp only [wrapsAt, (wide_iterate _).2.2, hw]
    decide
  · intro j h0 hj
    simp only [wrapsAt, (wide_iterate _).2.2, hw]
    omega
theorem witness_PhaseIsContinuous :
    let s := st 0x40000 0x10000 .sawtooth true 4
    s.en = true ∧ exec (.setf 104167) s = .next (answered { s with step := 0x80000#24 } 0x00080000#32) ∧
    exec (.selw 3) s = .next (answered { s with wsel := .reverseSawtooth } 3#32) := ⟨rfl, rfl, rfl⟩
theorem witness_HaltLosesNoSample : (st 0x30000 0x10000 .sawtooth true 3).en = true := by decide
theorem witness_MutedEngineStaysSilent :
    let s := st 0x30000 0x10000 .sawtooth false 3
    s.en = false ∧ runEvents [.tick, .cmd 0x09000000#32, .tick] s = .next (answered s 0x00030000#32) ∧
    Event.reset ∉ [Event.tick, .cmd 0x09000000#32, .tick] ∧
    ∀ w, Event.cmd w ∈ [Event.tick, .cmd 0x09000000#32, .tick] →
      decode w ≠ .ok .en ∧ decode w ≠ .ok .tgl ∧ decode w ≠ .ok .rstph := by
  refine ⟨rfl, rfl, by decide, ?_⟩
  intro w hw
  simp only [List.mem_cons, List.not_mem_nil, or_false, reduceCtorEq, false_or, Event.cmd.injEq] at hw
  subst hw
  decide
theorem witness_StepIsStrictlyIncreasing : (499 : Nat) < 500 := by decide
theorem witness_StepIsAccurate : 0 < 500 ∧ HwConfig.t0.val.minFreq ≤ 500 ∧ 500 ≤ HwConfig.t0.val.maxFreq := by decide
theorem witness_TestConfigurationWithinOnePercent : 1 ≤ 1 ∧ 1000000 ≤ 1000000 := by decide
theorem witness_WorkedExampleOfTheSource :
    let s := st 0 0 .sine true 0
    s.cfg.val = Config.t0 ∧ s.phase = 0#24 ∧ s.en = true := by decide
theorem witness_ResetEdgeDoesNothingElse :
    (atTick (st 1 2 .square true 3) true 0x03000000#32).inputs = [⟨true, true, 0x03000000#32⟩] := by decide
theorem witness_EdgeRunsTheDecodedCommand :
    (atTick State.reset false 0x05000000#32).inputs = [⟨false, true, 0x05000000#32⟩] ∧
    decode 0x05000000#32 = .ok .tgl := by decide
theorem witness_EdgeAnswersIllegalWords :
    (atTick State.reset false 0x05000001#32).inputs = [⟨false, true, 0x05000001#32⟩] ∧
    decode 0x05000001#32 = .error (.operandMustBeZero 0x05#8 1#24) := by decide
theorem witness_IdleEdgeOnlyTicks : State.reset.inputs = [] ∧
    { State.reset with inputs := [⟨false, false, 0x03000000#32⟩] }.inputs = [⟨false, false, 0x03000000#32⟩] := by decide
theorem witness_PlacedWordRunsNext : decodeTableWord 32 0x01FFFFFF = some (.setf 16777215) := by decide
theorem witness_EveryStepKeepsTheInvariant : ∃ t, Inv State.reset ∧ step State.reset = .next t := by
  refine ⟨_, ⟨by decide, .inl rfl, ?_, ?_⟩, rfl⟩ <;> intro h <;> exact absurd h (by decide)
theorem witness_ResetEdgeEstablishesTheInvariant : ∃ t,
    (atTick (st 1 2 .square true 3) true 0#32).inputs = [⟨true, true, 0#32⟩] ∧
    step (atTick (st 1 2 .square true 3) true 0#32) = .next t := ⟨_, rfl, rfl⟩
/-- For GateTransitions, OnlyResetRestartAndTickWritePhase, OnlyResetAndTheirCommandWriteStepAndWsel, StrobeOutAndTraceAgree,
OneResponsePerCommand, RomAndConfigurationAreConstant: edges that answer a next state, with a command that changes the register
in question, with `rst`, and with nothing presented. -/
theorem witness_statements_about_a_step :
    (∃ t, step (atTick State.reset false 0x05000000#32) = .next t ∧ t.en = true ∧ t.outWe = true) ∧
    (∃ t, step (atTick (st 7 0 .sine false 0) false 0x07000000#32) = .next t ∧ t.phase = 0#24 ∧ t.outWe = false) ∧
    (∃ t, step (atTick State.reset false 0x010001F4#32) = .next t ∧ t.step ≠ State.reset.step) ∧
    (∃ t, step (atTick State.reset false 0x02000004#32) = .next t ∧ t.wsel ≠ State.reset.wsel ∧ t.rspValid = true) ∧
    (∃ t, step (atTick (st 1 2 .square true 3) true 0#32) = .next t ∧ t.rspValid = false) ∧
    (∃ t, step State.reset = .next t ∧ t.tcnt = 1) :=
  ⟨⟨_, rfl, by decide, by decide⟩, ⟨_, rfl, by decide, by decide⟩, ⟨_, rfl, by decide⟩,
    ⟨_, rfl, by decide, by decide⟩, ⟨_, rfl, rfl⟩, ⟨_, rfl, rfl⟩⟩
theorem witness_TicksFallOnTheGrid : State.reset.tcnt = 0 ∧ ∀ p ∈ State.reset.inputs.take 100, p.rst = false := by decide
theorem witness_ObservationsAreNeverRead :
    agreeOnHardware State.reset { State.reset with rspWord := 5#32, trace := [1#8], responses := [2#32], freeCtr := 9 } :=
  ⟨rfl, rfl, rfl, rfl, rfl⟩
theorem witness_DefaultTablesAtTheirAddresses : (255 : Nat) < 256 := by decide
theorem witness_RomAddressesAreFlat : (WaveKind.square, 4) ∈ kindsByNumber ∧ 1280 ≤ 1280 := by decide
theorem witness_RomListIsCanonical : Machine.Memory.wf [(0, 7#8)] = true ∧
    ∀ k i, romRead [(0, 7#8)] k i = romRead [(0, 7#8)] k i := ⟨by decide, fun _ _ => rfl⟩
theorem witness_AssemblerReadsWrittenCommands : (Instr.setf 16777215).wf = true ∧
    assembleLine (writeLine (.setf 16777215)) = .ok [.cmd 0x01FFFFFF#32] := by decide

end Sys2Proof.Tests
end

section
/-! The instance's tables (00_scope.md R8, R9 WF7): the list built from a function reads as that function, and the check of
the square table counts its levels. -/

namespace Sys2Proof.Machine

/-- The first address decides nothing about the addresses above it. -/
theorem lookup_romCells_of_lt (f : WaveKind → Byte → Byte) {lo a : Nat} (n : Nat) (h : lo < a) :
    (romCells f lo (n + 1)).lookup a = (romCells f (lo + 1) n).lookup a := by
  have hne : (a == lo) = false := beq_false_of_ne h.ne'
  cases hk : kindOfNumber? (lo / 256) with
  | none => simp [romCells, hk]
  | some k =>
    by_cases hb : f k (BitVec.ofNat 8 (lo % 256)) = defaultSample k (BitVec.ofNat 8 (lo % 256))
    · simp [romCells, hk, hb]
    · simp [romCells, hk, hb, List.lookup_cons, hne]

/-- The first address is listed exactly when its byte is not the default one, so it reads as the function either way. -/
theorem lookup_romCells_self (f : WaveKind → Byte → Byte) {lo : Nat} {k : WaveKind} (n : Nat)
    (hk : kindOfNumber? (lo / 256) = some k) :
    ((romCells f lo (n + 1)).lookup lo).getD (defaultSample k (BitVec.ofNat 8 (lo % 256))) =
      f k (BitVec.ofNat 8 (lo % 256)) := by
  have habove : (romCells f (lo + 1) n).lookup lo = none := lookup_of_lt (romCells_wf f n (lo + 1)) (Nat.lt_succ_self lo)
  by_cases hb : f k (BitVec.ofNat 8 (lo % 256)) = defaultSample k (BitVec.ofNat 8 (lo % 256))
  · simp [romCells, hk, hb, habove]
  · simp [romCells, hk, hb]

/-- Every populated address in the range reads as the function. -/
theorem lookup_romCells (f : WaveKind → Byte → Byte) {a : Nat} {k : WaveKind} (hk : kindOfNumber? (a / 256) = some k)
    (n : Nat) : ∀ lo, lo ≤ a → a < lo + n →
    ((romCells f lo n).lookup a).getD (defaultSample k (BitVec.ofNat 8 (a % 256))) = f k (BitVec.ofNat 8 (a % 256)) := by
  induction n with
  | zero => intro lo hlo ha; omega
  | succ n ih =>
    intro lo hlo ha
    rcases hlo.eq_or_lt with rfl | hlt
    · exact lookup_romCells_self f n hk
    · rw [lookup_romCells_of_lt f n hlt]
      exact ih (lo + 1) hlt (by omega)

/-- The samples of a table are the members of its list. -/
theorem romTable_toFinset (m : Memory) (k : WaveKind) :
    (romTable m k).toFinset = Finset.univ.image (romRead m k) := by
  ext b
  simp only [romTable, List.mem_toFinset, List.mem_map, List.mem_range, Finset.mem_image, Finset.mem_univ, true_and]
  constructor
  · rintro ⟨i, -, rfl⟩
    exact ⟨_, rfl⟩
  · rintro ⟨i, rfl⟩
    exact ⟨i.toNat, i.isLt, by simp⟩

/-- A list that passes the check has two members: its first and the first that differs from it. -/
theorem card_toFinset_of_twoLevels {l : List Byte} (h : twoLevels l = true) : l.toFinset.card = 2 := by
  cases l with
  | nil => simp [twoLevels] at h
  | cons a l =>
    cases hf : l.find? (fun x => x != a) with
    | none => simp [twoLevels, hf] at h
    | some b =>
      have hne : b ≠ a := by simpa using List.find?_some hf
      have hmem : b ∈ l := List.mem_of_find?_eq_some hf
      have hall : ∀ x ∈ l, x = a ∨ x = b := by simpa [twoLevels, hf] using h
      have hset : (a :: l).toFinset = {a, b} := by
        ext x
        simp only [List.mem_toFinset, List.mem_cons, Finset.mem_insert, Finset.mem_singleton]
        exact ⟨fun hx => hx.elim .inl (hall x), Or.imp_right fun (hx : x = b) => hx ▸ hmem⟩
      rw [hset, Finset.card_pair hne.symm]

/-- Settles O53: each of the 1,280 addresses reads as the function, by induction on the number of addresses the
list is built from. -/
theorem everyTableIsRepresented : Obligations.EveryTableIsRepresented := by
  intro f k i
  have hk : kindOfNumber? (romAddr k i / 256) = some k := by rw [romAddr_div, kindOfNumber_kindNumber]
  have h := lookup_romCells f hk 1280 0 (Nat.zero_le _) (by have := romAddr_lt k i; omega)
  simpa [romRead, romOfTable, romAddr_mod] using h

/-- Settles O55, from WF7: the check finds the table's two levels. -/
theorem squareTableHasTwoLevels : Obligations.SquareTableHasTwoLevels := by
  intro c
  obtain ⟨-, -, -, -, -, -, -, hwf7⟩ := hwConfig_conditions c
  have h := card_toFinset_of_twoLevels hwf7
  rwa [romTable_toFinset] at h

end Sys2Proof.Machine
end

section
/-! The invariant of the clocked block, who writes PHASE, STEP and WSEL over an edge, and noninterference of the
observations (10_state.md R21, R22, R25, R32, R34, R35): first what the command's half of an edge does, then the edge. -/

namespace Sys2Proof.Machine

/-! ## The command's half of an edge -/

/-- The command's half of an edge either has nothing to answer, or answers ILL, or ends a command's effect with its
response (20_memory.md R54, 44_system.md R141, R142). -/
theorem commandPart_cases {p : PinInputs} {s u : State} (h : commandPart p s = .next u) :
    (p.cmdValid = false ∧ u = noResponse s) ∨
    (p.cmdValid = true ∧ ∃ r, decode p.cmdWord = .error r ∧ u = respond .errIllegalCmd 0#24 s) ∨
    (p.cmdValid = true ∧ ∃ i code data v, decode p.cmdWord = .ok i ∧ CommandEffect s i code data v ∧
      u = respond code data v) := by
  cases hv : p.cmdValid with
  | false =>
    simp only [commandPart, hv, Bool.false_eq_true, if_false, Host.Outcome.next.injEq] at h
    exact .inl ⟨rfl, h.symm⟩
  | true =>
    obtain ⟨code, data, v, ha, hc⟩ := acceptCommand_effect p.cmdWord s
    simp only [commandPart, hv, if_true, ha, Host.Outcome.next.injEq] at h
    rcases hc with ⟨i, hi, -, he⟩ | ⟨⟨r, hr⟩, rfl, rfl, rfl⟩
    · exact .inr (.inr ⟨rfl, i, code, data, v, hi, he, h.symm⟩)
    · exact .inr (.inl ⟨rfl, r, hr, h.symm⟩)

/-- It leaves the configuration and the prescaler alone. -/
theorem commandPart_cfg_tcnt {p : PinInputs} {s u : State} (h : commandPart p s = .next u) :
    u.cfg = s.cfg ∧ u.tcnt = s.tcnt := by
  rcases commandPart_cases h with ⟨-, rfl⟩ | ⟨-, _, -, rfl⟩ | ⟨-, i, code, data, v, -, he, rfl⟩
  · exact ⟨rfl, rfl⟩
  · exact ⟨rfl, rfl⟩
  · obtain ⟨hcfg, -, htcnt, -⟩ := he.frame
    exact ⟨hcfg, htcnt⟩

/-- RSTPH is the one command that writes PHASE (10_state.md R21). -/
theorem CommandEffect.phase_eq {s v : State} {i : Instr} {code : RspCode} {data : Word24}
    (h : CommandEffect s i code data v) : v.phase = if i = .rstph then 0#24 else s.phase := by
  cases h with
  | nothing _ _ ha => rcases ha with rfl | rfl | rfl | rfl | rfl | rfl <;> rfl
  | setEn _ _ he => rcases he with ⟨rfl, -⟩ | ⟨rfl, -⟩ | ⟨rfl, -⟩ <;> rfl
  | _ => rfl

/-- An accepted SETF is the one command that writes STEP (10_state.md R22). -/
theorem CommandEffect.step_changed {s v : State} {i : Instr} {code : RspCode} {data : Word24}
    (h : CommandEffect s i code data v) (hne : v.step ≠ s.step) :
    ∃ hz, i = .setf hz ∧ freqInRange s.cfg.val hz = true ∧ v.step = BitVec.ofNat 24 (stepOf s.cfg.val hz) := by
  cases h with
  | setStep hz hf => exact ⟨hz, rfl, hf, rfl⟩
  | _ => exact absurd rfl hne

/-- An accepted SELW is the one command that writes WSEL (10_state.md R25). -/
theorem CommandEffect.wsel_changed {s v : State} {i : Instr} {code : RspCode} {data : Word24}
    (h : CommandEffect s i code data v) (hne : v.wsel ≠ s.wsel) : i = .selw (kindNumber v.wsel) := by
  cases h with
  | setWsel n k hk => rw [kindOfNumber_eq_some hk]; rfl
  | _ => exact absurd rfl hne

/-- PHASE after the command's half: 0 after RSTPH, otherwise as before. -/
theorem commandPart_phase {p : PinInputs} {s u : State} (h : commandPart p s = .next u) :
    u.phase = if p.cmdValid ∧ decode p.cmdWord = .ok .rstph then 0#24 else s.phase := by
  rcases commandPart_cases h with ⟨hv, rfl⟩ | ⟨-, r, hd, rfl⟩ | ⟨hv, i, code, data, v, hd, he, rfl⟩
  · simp [hv]
  · simp [hd]
  · simpa [hv, hd] using he.phase_eq

/-- The range check of SETF (42_frequency_controller.md R113). -/
theorem freqInRange_iff {c : Config} {hz : Nat} : freqInRange c hz = true ↔ c.minFreq ≤ hz ∧ hz ≤ c.maxFreq := by
  simp [freqInRange]

/-- When the command's half changes STEP, the word was a SETF in range, whose step STEP now holds. -/
theorem commandPart_step_changed {p : PinInputs} {s u : State} (h : commandPart p s = .next u)
    (hne : u.step ≠ s.step) :
    p.cmdValid = true ∧ ∃ hz, decode p.cmdWord = .ok (.setf hz) ∧
      s.cfg.val.minFreq ≤ hz ∧ hz ≤ s.cfg.val.maxFreq ∧ u.step.toNat = stepOf s.cfg.val hz := by
  rcases commandPart_cases h with ⟨-, rfl⟩ | ⟨-, _, -, rfl⟩ | ⟨hv, i, code, data, v, hd, he, rfl⟩
  · exact absurd rfl hne
  · exact absurd rfl hne
  · obtain ⟨hz, rfl, hf, hstep⟩ := he.step_changed hne
    obtain ⟨hmin, hmax⟩ := freqInRange_iff.mp hf
    refine ⟨hv, hz, hd, hmin, hmax, ?_⟩
    rw [respond_step, hstep, stepOf_toNat s.cfg hf]

/-- When the command's half changes WSEL, the word was a SELW of the new kind's number. -/
theorem commandPart_wsel_changed {p : PinInputs} {s u : State} (h : commandPart p s = .next u)
    (hne : u.wsel ≠ s.wsel) : p.cmdValid = true ∧ decode p.cmdWord = .ok (.selw (kindNumber u.wsel)) := by
  rcases commandPart_cases h with ⟨-, rfl⟩ | ⟨-, _, -, rfl⟩ | ⟨hv, i, code, data, v, hd, he, rfl⟩
  · exact absurd rfl hne
  · exact absurd rfl hne
  · exact ⟨hv, hd.trans (congrArg Except.ok (he.wsel_changed hne))⟩

/-- A response whose data is 0 with any code other than OK is legal (30_encoding.md R65). -/
theorem legalResponse_rspOf {c : RspCode} {d : Word24} (h : c ≠ .ok → d = 0#24) : legalResponse (rspOf c d) := by
  refine ⟨?_, fun hc => ?_⟩
  · rw [rspOf_code]
    cases c <;> decide
  · rw [rspOf_code] at hc
    rw [rspOf_data, h (mt codeBits_eq_zero.mpr hc)]
    rfl

/-- After `respond`, `rsp_word` is the latest response. -/
theorem respond_getLast (c : RspCode) (d : Word24) (s : State) :
    (respond c d s).responses.getLast? = some (respond c d s).rspWord := by simp

/-- A response that the command's half shows is the latest one, and legal (20_memory.md R53, 30_encoding.md R65). -/
theorem commandPart_response {p : PinInputs} {s u : State} (h : commandPart p s = .next u)
    (hv : u.rspValid = true) : u.responses.getLast? = some u.rspWord ∧ legalResponse u.rspWord := by
  rcases commandPart_cases h with ⟨-, rfl⟩ | ⟨-, _, -, rfl⟩ | ⟨-, i, code, data, v, -, he, rfl⟩
  · simp at hv
  · exact ⟨respond_getLast _ _ _, legalResponse_rspOf fun _ => rfl⟩
  · exact ⟨respond_getLast _ _ _, legalResponse_rspOf fun hc => (he.error hc).1⟩

/-! ## The edge -/

/-- An edge is Reset alone, or the command's half and then the prescaler's (20_memory.md R54). -/
theorem step_halves {s t : State} (h : step s = .next t) :
    ((pinsNow s).rst = true ∧ t = doReset (popInputs s)) ∨
    ((pinsNow s).rst = false ∧ ∃ u, commandPart (pinsNow s) (popInputs s) = .next u ∧ t = tickPart u) := by
  cases hr : (pinsNow s).rst with
  | true =>
    rw [step_reset hr, Host.Outcome.next.injEq] at h
    exact .inl ⟨rfl, h.symm⟩
  | false =>
    simp only [step, risingEdge, hr, Bool.false_eq_true, if_false] at h
    cases hc : commandPart (pinsNow s) (popInputs s) with
    | next u =>
      simp only [hc, andThen_next, Host.Outcome.next.injEq] at h
      exact .inr ⟨rfl, u, rfl, h.symm⟩
    | fault r => simp [hc, andThen] at h
    | refused r => simp [hc, andThen] at h

/-! ## The invariant -/

/-- The registers Reset clears are all the invariant asks about, since TICK_CYCLES is positive (00_scope.md R9 WF1). -/
theorem inv_of_cleared {s : State} (htcnt : s.tcnt = 0) (hstep : s.step = 0#24) (hrsp : s.rspValid = false)
    (hwe : s.outWe = false) : Inv s where
  tcnt_lt := by
    obtain ⟨-, hcycles, -⟩ := hwConfig_conditions s.cfg
    omega
  step_legal := .inl hstep
  response_shown h := by simp [hrsp] at h
  strobe h := by simp [hwe] at h

/-- The prescaler's half keeps TCNT below TICK_CYCLES (10_state.md R27). -/
theorem tickPart_tcnt_lt {u : State} (h : u.tcnt < u.cfg.val.tickCycles) :
    (tickPart u).tcnt < u.cfg.val.tickCycles := by
  rw [(tickPart_spec u).1]
  split
  · omega
  · next hd =>
    have hne : u.tcnt ≠ u.cfg.val.tickCycles - 1 := by simpa [tickDue] using hd
    omega

/-- The strobe is 1 after the prescaler's half only if the Tick on the wrap has emitted (20_memory.md R51, R54). -/
theorem tickPart_strobe {u : State} (h : (tickPart u).outWe = true) :
    (tickPart u).en = true ∧ (tickPart u).tcnt = 0 ∧ (tickPart u).trace.getLast? = some (tickPart u).out ∧
      (tickPart u).out = romRead (tickPart u).cfg.val.waveRom (tickPart u).wsel (highByte (tickPart u).phase) := by
  obtain ⟨htcnt, hwe, hphase, hout, htrace⟩ := tickPart_spec u
  rw [hwe] at h
  have hboth : tickDue u = true ∧ u.en = true := by simpa using h
  simp [htcnt, hphase, hout, htrace, hboth]

/-- STEP stays legal over the command's half (10_state.md R22). -/
theorem commandPart_legalStep {p : PinInputs} {s u : State} (h : commandPart p s = .next u)
    (hs : legalStep s.cfg.val s.step) : legalStep u.cfg.val u.step := by
  rw [(commandPart_cfg_tcnt h).1]
  by_cases hne : u.step = s.step
  · rwa [hne]
  · obtain ⟨-, hz, -, hmin, hmax, hstep⟩ := commandPart_step_changed h hne
    exact .inr ⟨hz, hmin, hmax, hstep⟩

/-- Settles O39: Reset clears the registers; otherwise the command's half keeps TCNT and STEP legal and shows only
legal responses, and the prescaler's half raises the strobe only with an emission. -/
theorem everyStepKeepsTheInvariant : Obligations.EveryStepKeepsTheInvariant := by
  intro s t hinv hstep
  rcases step_halves hstep with ⟨-, rfl⟩ | ⟨-, u, hu, rfl⟩
  · exact inv_of_cleared rfl rfl rfl rfl
  · obtain ⟨hcfg, htcnt⟩ := commandPart_cfg_tcnt hu
    have hlt : u.tcnt < u.cfg.val.tickCycles := by rw [hcfg, htcnt]; exact hinv.tcnt_lt
    exact {
      tcnt_lt := by simpa using tickPart_tcnt_lt hlt
      step_legal := by simpa using commandPart_legalStep hu hinv.step_legal
      response_shown := by simpa using commandPart_response hu
      strobe := tickPart_strobe }

/-- Settles O40: the state after reset has the registers of a Reset. -/
theorem resetStateMeetsTheInvariant : Obligations.ResetStateMeetsTheInvariant :=
  ⟨fun _ => inv_of_cleared rfl rfl rfl rfl, inv_of_cleared rfl rfl rfl rfl⟩

/-- Settles O41: the edge is the Reset event, which clears the registers whatever they held. -/
theorem resetEdgeEstablishesTheInvariant : Obligations.ResetEdgeEstablishesTheInvariant := by
  intro s t p ps hin hrst hstep
  have hpins : (pinsNow s).rst = true := by simpa [pinsNow, hin] using hrst
  rw [step_reset hpins, Host.Outcome.next.injEq] at hstep
  subst hstep
  exact inv_of_cleared rfl rfl rfl rfl

/-- Settles O32: the Reset event is this record update; the word is the free value it draws. -/
theorem resetEventWritesEveryRegister : Obligations.ResetEventWritesEveryRegister :=
  fun s => ⟨Config.freeRspWord s.freeCtr, rfl⟩

/-! ## Who writes PHASE, STEP and WSEL -/

/-- Settles O43: the command's half leaves the starting PHASE, to which the Tick on the wrap adds STEP. -/
theorem onlyResetRestartAndTickWritePhase : Obligations.OnlyResetRestartAndTickWritePhase := by
  intro s t hstep p start
  have hp : p = pinsNow s := rfl
  rcases step_halves hstep with ⟨hr, rfl⟩ | ⟨hr, u, hu, rfl⟩
  · simp [hp, hr]
  · obtain ⟨hcfg, htcnt⟩ := commandPart_cfg_tcnt hu
    obtain ⟨-, -, hphase, -, -⟩ := tickPart_spec u
    have hstart : u.phase = start := commandPart_phase (s := popInputs s) hu
    have hdue : tickDue u = true ↔ s.tcnt = s.cfg.val.tickCycles - 1 := by simp [tickDue, hcfg, htcnt]
    simp only [hp, hr, Bool.false_eq_true, if_false, tickPart_en, tickPart_step, hphase, hstart,
      Bool.and_eq_true, hdue]
    split <;> rfl

/-- Settles O44: the prescaler's half writes neither register, and the command's half only as SETF and SELW say. -/
theorem onlyResetAndTheirCommandWriteStepAndWsel : Obligations.OnlyResetAndTheirCommandWriteStepAndWsel := by
  intro s t hstep p
  have hp : p = pinsNow s := rfl
  rcases step_halves hstep with ⟨hr, -⟩ | ⟨-, u, hu, rfl⟩
  · exact ⟨fun _ => .inl hr, fun _ => .inl hr⟩
  · rw [tickPart_step, tickPart_wsel]
    exact ⟨fun hne => .inr (commandPart_step_changed (s := popInputs s) hu hne),
      fun hne => .inr (commandPart_wsel_changed (s := popInputs s) hu hne)⟩

/-! ## Nothing reads the observations -/

/-- The state with its five registers replaced. -/
def State.withRegs (s : State) (r : Regs) : State :=
  { s with phase := r.phase, step := r.step, wsel := r.wsel, en := r.en, out := r.out }

/-- The two ways of writing a response word agree (30_encoding.md R64). -/
theorem rspOf_eq_refRsp (c : RspCode) (d : Word24) : rspOf c d = refRsp (codeBits c).toNat d.toNat := by
  apply BitVec.eq_of_toNat_eq
  have hd := d.isLt
  have hc := (codeBits c).isLt
  rw [rspOf_toNat, refRsp, BitVec.toNat_ofNat]
  omega

/-- `respond` is `answered` with the word written as the reference semantics writes it. -/
theorem respond_eq_answered (c : RspCode) (s : State) {d : Word24} {n : Nat} (h : d.toNat = n) :
    respond c d s = answered s (refRsp (codeBits c).toNat n) := by
  rw [← h, ← rspOf_eq_refRsp]
  rfl

/-- SETF installs and answers the whole step of a frequency in range (42_frequency_controller.md R112, R113). -/
theorem execSetf_eq_answered (hz : Nat) (s : State) :
    execSetf hz s =
      if s.cfg.val.minFreq ≤ hz ∧ hz ≤ s.cfg.val.maxFreq then
        .next (answered { s with step := BitVec.ofNat 24 (stepOf s.cfg.val hz) } (refRsp 0 (stepOf s.cfg.val hz)))
      else .next (answered s (refRsp 1 0)) := by
  simp only [execSetf, ← freqInRange_iff]
  split
  · next h => exact congrArg Host.Outcome.next (respond_eq_answered .ok _ (stepOf_toNat s.cfg h))
  · exact congrArg Host.Outcome.next (respond_eq_answered .errFreqRange s rfl)

/-- Any word's command is the reference semantics' function of the configuration and the five registers (44_system.md
R142, R143). -/
theorem acceptCommand_eq_refExec (w : Word) (s : State) :
    acceptCommand w s =
      .next (answered (s.withRegs (refExec s.cfg.val s.regs w).1) (refExec s.cfg.val s.regs w).2) := by
  unfold acceptCommand refExec
  cases decode w with
  | error r => exact congrArg Host.Outcome.next (respond_eq_answered .errIllegalCmd s rfl)
  | ok i =>
    cases i with
    | setf hz =>
      refine (execSetf_eq_answered hz s).trans ?_
      dsimp only
      split <;> rfl
    | selw n =>
      simp only [exec, execSelw]
      cases h : kindOfNumber? n with
      | some k =>
        rw [kindOfNumber_eq_some h]
        cases k <;> exact congrArg Host.Outcome.next (respond_eq_answered .ok _ rfl)
      | none =>
        obtain ⟨m, rfl⟩ := Nat.exists_eq_add_of_le' (kindOfNumber_eq_none.mp h)
        exact congrArg Host.Outcome.next (respond_eq_answered .errWaveKind s rfl)
    | tgl =>
      have hdata : (enData (toggled s.en)).toNat = 1 - s.en.toNat := by cases s.en <;> rfl
      exact congrArg Host.Outcome.next (respond_eq_answered .ok _ hdata)
    | rden =>
      have hdata : (enData s.en).toNat = s.en.toNat := by cases s.en <;> rfl
      exact congrArg Host.Outcome.next (respond_eq_answered .ok s hdata)
    | rdw =>
      have hdata : (wselData s.wsel).toNat = kindNumber s.wsel := by cases s.wsel <;> rfl
      exact congrArg Host.Outcome.next (respond_eq_answered .ok s hdata)
    | rdout =>
      have hdata : (outData s.out).toNat = s.out.toNat := BitVec.toNat_setWidth_of_le (by decide)
      exact congrArg Host.Outcome.next (respond_eq_answered .ok s hdata)
    | _ => exact congrArg Host.Outcome.next (respond_eq_answered .ok _ rfl)

/-- The hardware's fields are all that the prescaler's half reads (20_memory.md R54). -/
theorem tickPart_agree {u u' : State} (h : agreeOnHardware u u') :
    agreeOnHardware (tickPart u) (tickPart u') := by
  obtain ⟨hcfg, hregs, htcnt, -, hinputs⟩ := h
  simp only [State.regs, Regs.mk.injEq] at hregs
  obtain ⟨hphase, hstep, hwsel, hen, hout⟩ := hregs
  have hdue : tickDue u = tickDue u' := by rw [tickDue, tickDue, hcfg, htcnt]
  obtain ⟨ht, hw, hp, ho, -⟩ := tickPart_spec u
  obtain ⟨ht', hw', hp', ho', -⟩ := tickPart_spec u'
  simp only [agreeOnHardware, State.regs, ht, hw, hp, ho, ht', hw', hp', ho', hdue,
    tickPart_cfg, tickPart_step, tickPart_wsel, tickPart_en, tickPart_inputs, hcfg, hphase, hstep, hwsel, hen,
    hout, htcnt, hinputs, and_self]

/-- What two states show on the response port is the same while `rsp_valid` = 1. -/
def agreeOnPort (t t' : State) : Prop :=
  t.rspValid = t'.rspValid ∧ (t.rspValid = true → t.rspWord = t'.rspWord)

/-- From states that agree on the hardware, one edge leads to states that agree on it and on the response shown. -/
theorem step_agree {s s' : State} (h : agreeOnHardware s s') :
    ∃ t t', step s = .next t ∧ step s' = .next t' ∧ agreeOnHardware t t' ∧ agreeOnPort t t' := by
  obtain ⟨hcfg, hregs, htcnt, hwe, hinputs⟩ := h
  have hpins : pinsNow s' = pinsNow s := by rw [pinsNow, pinsNow, hinputs]
  have htail : s.inputs.tail = s'.inputs.tail := congrArg List.tail hinputs
  cases hr : (pinsNow s).rst with
  | true =>
    exact ⟨_, _, step_reset hr, step_reset (hpins ▸ hr), ⟨hcfg, rfl, rfl, rfl, htail⟩, rfl, nofun⟩
  | false =>
    cases hv : (pinsNow s).cmdValid with
    | false =>
      exact ⟨_, _, step_idle hr hv, step_idle (hpins ▸ hr) (hpins ▸ hv),
        tickPart_agree ⟨hcfg, hregs, htcnt, hwe, htail⟩, by simp [agreeOnPort]⟩
    | true =>
      have hs := step_command hr hv
      have hs' := step_command (hpins ▸ hr) (hpins ▸ hv)
      rw [acceptCommand_eq_refExec] at hs hs'
      have hexec : refExec (popInputs s').cfg.val (popInputs s').regs (pinsNow s').cmdWord =
          refExec (popInputs s).cfg.val (popInputs s).regs (pinsNow s).cmdWord := by
        rw [hpins]
        exact congrArg₂ (refExec ·.val · _) hcfg.symm hregs.symm
      rw [hexec] at hs'
      exact ⟨_, _, hs, hs', tickPart_agree ⟨hcfg, rfl, htcnt, hwe, htail⟩, by simp [agreeOnPort, answered]⟩

/-- Both agreements together last for any number of edges. -/
theorem run_agree (n : Nat) : ∀ {s s' : State}, agreeOnHardware s s' → agreeOnPort s s' →
    ∃ t t', Sys2Proof.core.run n s = .next t ∧ Sys2Proof.core.run n s' = .next t' ∧ agreeOnHardware t t' ∧
      agreeOnPort t t' := by
  induction n with
  | zero => exact fun h hp => ⟨_, _, rfl, rfl, h, hp⟩
  | succ n ih =>
    intro s s' h _
    obtain ⟨u, u', hu, hu', hagree, hport⟩ := step_agree h
    rw [run_succ hu, run_succ hu']
    exact ih hagree hport

/-- Settles O50: the first edge already makes the response ports agree, and from then on both agreements last. -/
theorem observationsAreNeverRead : Obligations.ObservationsAreNeverRead := by
  intro n s s' h
  cases n with
  | zero => exact ⟨s, s', rfl, rfl, h, fun h0 => absurd h0 (lt_irrefl 0)⟩
  | succ n =>
    obtain ⟨u, u', hu, hu', hagree, hport⟩ := step_agree h
    obtain ⟨t, t', ht, ht', hfinal, hport'⟩ := run_agree n hagree hport
    exact ⟨t, t', (run_succ hu).trans ht, (run_succ hu').trans ht', hfinal, fun _ => hport'⟩

end Sys2Proof.Machine
end


section
/-! Clock edges and the events they stand for (20_memory.md R42, R51, R53, R54): what either half of an edge leaves behind,
the run of the events of n edges, and the grid on which the Ticks fall. -/

namespace Sys2Proof.Machine

/-! ## The halves of an edge -/

/-- The prescaler's half of an edge, as 20_memory.md R54 is written out for the statements. -/
theorem tickPart_eq_afterPrescaler (s : State) : tickPart s = afterPrescaler s := by
  simp [tickPart, tickDue, afterPrescaler]

/-- The command's half writes neither OUT nor the trace (10_state.md R23). -/
theorem commandPart_out_trace {p : PinInputs} {s u : State} (h : commandPart p s = .next u) :
    u.out = s.out ∧ u.trace = s.trace := by
  rcases commandPart_cases h with ⟨-, rfl⟩ | ⟨-, _, -, rfl⟩ | ⟨-, i, code, data, v, -, he, rfl⟩
  · exact ⟨rfl, rfl⟩
  · exact ⟨rfl, rfl⟩
  · obtain ⟨-, hout, -, -, -, -, htrace, -⟩ := he.frame
    exact ⟨hout, htrace⟩

/-- The command's half answers exactly a presented word, with one response (20_memory.md R53). -/
theorem commandPart_rspValid_responses {p : PinInputs} {s u : State} (h : commandPart p s = .next u) :
    u.rspValid = p.cmdValid ∧ u.responses = s.responses ++ (if u.rspValid then [u.rspWord] else []) := by
  rcases commandPart_cases h with ⟨hv, rfl⟩ | ⟨hv, _, -, rfl⟩ | ⟨hv, i, code, data, v, -, he, rfl⟩
  · simp [hv]
  · simp [hv]
  · obtain ⟨-, -, -, -, -, -, -, hresponses, -⟩ := he.frame
    simp [hv, hresponses]

/-- An edge with `rst` = 0 on which a command is presented runs it, and then the prescaler (20_memory.md R54). -/
theorem step_decoded {s : State} {i : Instr} (hr : (pinsNow s).rst = false) (hv : (pinsNow s).cmdValid = true)
    (hd : decode (pinsNow s).cmdWord = .ok i) :
    ∃ t, exec i (popInputs s) = .next t ∧ step s = .next (afterPrescaler t) := by
  obtain ⟨code, data, u, he, -⟩ := exec_effect i (popInputs s)
  refine ⟨_, he, ?_⟩
  rw [step_command hr hv, acceptCommand, hd, ← tickPart_eq_afterPrescaler]
  exact congrArg (andThen · _) he

/-- No edge stops the machine (60_exceptions.md R167). -/
theorem step_total (s : State) : ∃ t, step s = .next t := by
  rcases step_cases s with ⟨-, h⟩ | ⟨-, -, h⟩ | ⟨-, -, _, _, _, h, -⟩ <;> exact ⟨_, h⟩

/-! ## Edges and events -/

/-- The two states have the same instance, registers, trace and responses: all that an event reads or writes for good. -/
def agreeOnRun (s u : State) : Prop :=
  s.cfg = u.cfg ∧ s.regs = u.regs ∧ s.trace = u.trace ∧ s.responses = u.responses

/-- The Tick keeps the agreement (41_dds_engine.md R90). -/
theorem tick_agreeOnRun {s u : State} (h : agreeOnRun s u) : agreeOnRun (tick s) (tick u) := by
  obtain ⟨hcfg, hregs, htrace, hresponses⟩ := h
  simp only [State.regs, Regs.mk.injEq] at hregs
  obtain ⟨hphase, hstep, hwsel, hen, hout⟩ := hregs
  cases he : u.en with
  | false =>
    rw [tick_halted (hen.trans he), tick_halted he]
    simp [agreeOnRun, State.regs, *]
  | true =>
    rw [tick_running (hen.trans he), tick_running he]
    simp [agreeOnRun, State.regs, *]

/-- A command's effect and response are those the registers and the configuration determine, so they keep the agreement. -/
theorem answered_agreeOnRun {s u : State} (h : agreeOnRun s u) (r : Regs) (w : Word) :
    agreeOnRun (answered (s.withRegs r) w) (answered (u.withRegs r) w) := by
  obtain ⟨hcfg, -, htrace, hresponses⟩ := h
  exact ⟨hcfg, rfl, htrace, congrArg (· ++ [w]) hresponses⟩

/-- The command's half of an edge does what the event of its word does, or nothing when there is none. -/
theorem commandPart_agreeOnRun (p : PinInputs) {s u : State} (h : agreeOnRun s u) :
    ∃ s' u', commandPart p s = .next s' ∧
      runEvents (if p.cmdValid then [.cmd p.cmdWord] else []) u = .next u' ∧ agreeOnRun s' u' := by
  cases hv : p.cmdValid with
  | false => exact ⟨noResponse s, u, by simp [commandPart, hv], rfl, h⟩
  | true =>
    have ⟨hcfg, hregs, _, _⟩ := h
    have hexec : refExec s.cfg.val s.regs p.cmdWord = refExec u.cfg.val u.regs p.cmdWord := by
      rw [hcfg, hregs]
    have hs := acceptCommand_eq_refExec p.cmdWord s
    have hu := acceptCommand_eq_refExec p.cmdWord u
    rw [← hexec] at hu
    exact ⟨_, _, by rw [commandPart, hv, if_pos rfl, hs], by simp [runEvents, applyEvent, hu],
      answered_agreeOnRun h _ _⟩

/-- The prescaler's half of an edge does what the event Tick does on the wrap, and nothing on other edges. -/
theorem tickPart_agreeOnRun {s u : State} (h : agreeOnRun s u) :
    ∃ u', runEvents (if s.tcnt = s.cfg.val.tickCycles - 1 then [.tick] else []) u = .next u' ∧
      agreeOnRun (tickPart s) u' := by
  rw [tickPart_eq_afterPrescaler, afterPrescaler]
  split
  · exact ⟨tick u, rfl, tick_agreeOnRun h⟩
  · exact ⟨u, rfl, h⟩

/-- A run of events goes on from where its first part ends (00_scope.md R17). -/
theorem runEvents_append {es es' : List Event} {s t : State} (h : runEvents es s = .next t) :
    runEvents (es ++ es') s = runEvents es' t := by
  induction es generalizing s with
  | nil =>
    cases h
    rfl
  | cons e es ih =>
    rw [List.cons_append, runEvents]
    rw [runEvents] at h
    cases ha : applyEvent e s with
    | next u => exact ih (by simpa [ha] using h)
    | fault r => simp [ha, andThen] at h
    | refused r => simp [ha, andThen] at h

/-- One edge does what its events do (20_memory.md R54). -/
theorem step_agreeOnRun {s u : State} (h : agreeOnRun s u) :
    ∃ t u', step s = .next t ∧
      runEvents (edgeEvents s.cfg.val.tickCycles s.tcnt (pinsNow s)) u = .next u' ∧ agreeOnRun t u' := by
  cases hr : (pinsNow s).rst with
  | true =>
    obtain ⟨hcfg, -, htrace, hresponses⟩ := h
    exact ⟨_, doReset u, step_reset hr, by simp [edgeEvents, hr, runEvents, applyEvent],
      hcfg, rfl, htrace, hresponses⟩
  | false =>
    obtain ⟨s₁, u₁, hs₁, hu₁, hagree₁⟩ := commandPart_agreeOnRun (pinsNow s) (s := popInputs s) h
    obtain ⟨u₂, hu₂, hagree₂⟩ := tickPart_agreeOnRun hagree₁
    obtain ⟨hcfg, htcnt⟩ := commandPart_cfg_tcnt hs₁
    rw [hcfg, htcnt] at hu₂
    refine ⟨tickPart s₁, u₂, by simp [step, risingEdge, hr, hs₁], ?_, hagree₂⟩
    rw [edgeEvents, hr, if_neg Bool.false_ne_true, runEvents_append hu₁]
    exact hu₂

/-- Any number of edges does what the events of the edges do, from any two states that agree. -/
theorem run_agreeOnRun (n : Nat) : ∀ {s u : State}, agreeOnRun s u →
    ∃ t u', Sys2Proof.core.run n s = .next t ∧
      runEvents (eventsOfEdges s.cfg.val.tickCycles n s.tcnt s.inputs) u = .next u' ∧ agreeOnRun t u' := by
  induction n with
  | zero => exact fun h => ⟨_, _, rfl, rfl, h⟩
  | succ n ih =>
    intro s u h
    obtain ⟨s₁, u₁, hs₁, hu₁, hagree₁⟩ := step_agreeOnRun h
    obtain ⟨hcfg, hinputs, htcnt⟩ := step_clock hs₁
    obtain ⟨t, u', ht, hu', hagree⟩ := ih hagree₁
    rw [hcfg, hinputs, htcnt] at hu'
    exact ⟨t, u', (run_succ hs₁).trans ht, (runEvents_append hu₁).trans hu', hagree⟩

/-- Settles O49: by induction on the edges, the states of the two runs agree on all that an event reads or writes for
good. -/
theorem edgesRefineEvents : Obligations.EdgesRefineEvents := by
  intro n s
  obtain ⟨t, u, ht, hu, -, hregs, htrace, hresponses⟩ := run_agreeOnRun n (⟨rfl, rfl, rfl, rfl⟩ : agreeOnRun s s)
  exact ⟨t, u, ht, hu, hregs, htrace, hresponses⟩

/-! ## What one edge shows -/

/-- Settles O45: the command's half writes neither OUT nor the trace, and the prescaler's half writes both and the strobe
exactly when a Tick is due and EN = 1. -/
theorem strobeOutAndTraceAgree : Obligations.StrobeOutAndTraceAgree := by
  intro s t hstep
  rcases step_halves hstep with ⟨hr, rfl⟩ | ⟨-, u, hu, rfl⟩
  · exact ⟨by simp, by simp, fun _ => .inr ⟨hr, rfl⟩⟩
  · obtain ⟨hcfg, htcnt⟩ := commandPart_cfg_tcnt hu
    obtain ⟨hout, htrace⟩ := commandPart_out_trace hu
    obtain ⟨-, hwe', -, hout', htrace'⟩ := tickPart_spec u
    cases hemit : tickDue u && u.en with
    | false =>
      rw [hemit] at hwe' hout' htrace'
      simp [hwe', hout', htrace', hout, htrace]
    | true =>
      have hdue : s.tcnt = s.cfg.val.tickCycles - 1 ∧ u.en = true := by
        simpa [tickDue, hcfg, htcnt] using hemit
      rw [hemit] at hwe' hout' htrace'
      simp [hwe', hout', htrace', htrace, hdue]

/-- Settles O46: Reset and the prescaler's half answer nothing, and the command's half answers exactly a presented word. -/
theorem oneResponsePerCommand : Obligations.OneResponsePerCommand := by
  intro s t hstep p
  have hp : p = pinsNow s := rfl
  rcases step_halves hstep with ⟨hr, rfl⟩ | ⟨hr, u, hu, rfl⟩
  · simp [hp, hr]
  · obtain ⟨hvalid, hresponses⟩ := commandPart_rspValid_responses hu
    rw [tickPart_rspValid, tickPart_responses, tickPart_rspWord]
    exact ⟨by simp [hp, hr, hvalid], hresponses, fun hv => (commandPart_response hu hv).2⟩

/-- Settles O34: the pins carry the head of the inputs, and the rest stays for the coming edges. -/
theorem edgeRunsTheDecodedCommand : Obligations.EdgeRunsTheDecodedCommand := by
  intro s p ps i hin hr hv hd
  have hpins : pinsNow s = p := by simp [pinsNow, hin]
  have hpop : popInputs s = { s with inputs := ps } := by simp [popInputs, hin]
  subst hpins
  exact hpop ▸ step_decoded hr hv hd

/-- Settles O36: on either hypothesis the pins carry no `rst` and no command; the word is the free value drawn. -/
theorem idleEdgeOnlyTicks : Obligations.IdleEdgeOnlyTicks := by
  intro s hidle
  have hpins : (pinsNow s).rst = false ∧ (pinsNow s).cmdValid = false := by
    rcases hidle with hin | ⟨p, ps, hin, hr, hv⟩
    · simp [pinsNow, hin, idlePins]
    · simp [pinsNow, hin, hr, hv]
  obtain ⟨hr, hv⟩ := hpins
  rw [step_idle hr hv, tickPart_eq_afterPrescaler]
  exact ⟨Config.freeRspWord s.freeCtr, rfl⟩

/-- A table word that reads as a command decodes to it. -/
theorem decode_tableWord {nbits w : Nat} {i : Instr} (h : decodeTableWord nbits w = some i) :
    decode (tableWord nbits w) = .ok i := by
  unfold decodeTableWord at h
  cases hd : decode (tableWord nbits w) with
  | ok j => simpa [hd] using h
  | error r => simp [hd] at h

/-- Settles O37: the placed word is what the pins carry at the next edge. -/
theorem placedWordRunsNext : Obligations.PlacedWordRunsNext :=
  fun s nbits w _ h => step_decoded (s := s.withFetchWord nbits w) rfl rfl (decode_tableWord h)

/-- Settles O47: no edge writes the configuration, which holds the ROM. -/
theorem romAndConfigurationAreConstant : Obligations.RomAndConfigurationAreConstant := by
  intro s t hstep
  obtain ⟨hcfg, -, -⟩ := step_clock hstep
  exact ⟨hcfg, fun _ => by rw [hcfg]⟩

/-! ## The grid of the Ticks -/

/-- With `rst` = 0 on the first `n + 1` edges it is 0 on the first and on the `n` after it. -/
theorem noReset_succ {ps : List PinInputs} {n : Nat} (h : ∀ p ∈ ps.take (n + 1), p.rst = false) :
    (ps.headD idlePins).rst = false ∧ ∀ p ∈ ps.tail.take n, p.rst = false := by
  cases ps with
  | nil => exact ⟨rfl, by simp⟩
  | cons p ps => simpa using h

/-- An edge without `rst` moves the prescaler one place on round its cycle (20_memory.md R54). -/
theorem nextTcnt_of_noReset {T t : Nat} {p : PinInputs} (hr : p.rst = false) :
    nextTcnt T t p = if t = T - 1 then 0 else t + 1 := by
  simp [nextTcnt, hr]

/-- An edge without `rst` has its one Tick on the last place of the prescaler (20_memory.md R54). -/
theorem count_tick_edgeEvents {T t : Nat} {p : PinInputs} (hr : p.rst = false) :
    (edgeEvents T t p).count .tick = if t = T - 1 then 1 else 0 := by
  have hcmd : (if p.cmdValid then [Event.cmd p.cmdWord] else []).count .tick = 0 := by
    cases p.cmdValid <;> simp
  rw [edgeEvents, hr, if_neg Bool.false_ne_true, List.count_append, hcmd, Nat.zero_add]
  split <;> rfl

/-- From any place of the prescaler, `n` edges without `rst` pass the wrap as often as `t + n` holds TICK_CYCLES. -/
theorem count_tick_eventsOfEdges {T : Nat} (n : Nat) : ∀ {t : Nat} {ps : List PinInputs}, t < T →
    (∀ p ∈ ps.take n, p.rst = false) → (eventsOfEdges T n t ps).count .tick = (t + n) / T := by
  induction n with
  | zero =>
    intro t ps ht _
    rw [Nat.add_zero, Nat.div_eq_of_lt ht]
    rfl
  | succ n ih =>
    intro t ps ht hps
    obtain ⟨hr, htail⟩ := noReset_succ hps
    rw [eventsOfEdges, List.count_append, count_tick_edgeEvents hr, nextTcnt_of_noReset hr]
    split
    · next hlast =>
      have hsum : t + (n + 1) = n + T := by omega
      rw [ih (by omega) htail, hsum, Nat.add_div_right n (by omega), Nat.zero_add, Nat.add_comm]
    · rw [ih (by omega) htail, Nat.zero_add, Nat.add_right_comm, Nat.add_assoc]

/-- From any place of the prescaler, `n` edges without `rst` take it `n` places on round its cycle. -/
theorem run_tcnt (n : Nat) : ∀ {s : State}, s.tcnt < s.cfg.val.tickCycles →
    (∀ p ∈ s.inputs.take n, p.rst = false) →
    ∃ t, Sys2Proof.core.run n s = .next t ∧ t.tcnt = (s.tcnt + n) % s.cfg.val.tickCycles := by
  induction n with
  | zero => exact fun hlt _ => ⟨_, rfl, (Nat.mod_eq_of_lt hlt).symm⟩
  | succ n ih =>
    intro s hlt hps
    obtain ⟨hr, htail⟩ := noReset_succ hps
    obtain ⟨u, hu⟩ := step_total s
    obtain ⟨hcfg, hinputs, htcnt⟩ := step_clock hu
    rw [pinsNow, nextTcnt_of_noReset hr] at htcnt
    have hult : u.tcnt < u.cfg.val.tickCycles := by
      rw [hcfg, htcnt]
      split <;> omega
    obtain ⟨t, ht, hfinal⟩ := ih hult (hinputs ▸ htail)
    refine ⟨t, (run_succ hu).trans ht, hfinal.trans ?_⟩
    rw [hcfg, htcnt]
    split
    · next hlast =>
      have hsum : s.tcnt + (n + 1) = n + s.cfg.val.tickCycles := by omega
      rw [hsum, Nat.add_mod_right, Nat.zero_add]
    · rw [Nat.add_right_comm, Nat.add_assoc]

/-- Settles O48: from place 0, the prescaler's place and the Ticks are the remainder and the quotient of `n`. -/
theorem ticksFallOnTheGrid : Obligations.TicksFallOnTheGrid := by
  intro s n h0 hps
  obtain ⟨-, hcycles, -⟩ := hwConfig_conditions s.cfg
  obtain ⟨t, ht, htcnt⟩ := run_tcnt n (by omega) hps
  refine ⟨t, ht, ?_, ?_⟩
  · rw [htcnt, h0, Nat.zero_add]
  · rw [count_tick_eventsOfEdges n hcycles hps, Nat.zero_add]

end Sys2Proof.Machine
end

section
/-! The ROM's addresses and the list that holds it (20_memory.md R41, R48 to R50, log 10): reading a byte by its flat address,
and the canonical form, which the bytes read determine. -/

namespace Sys2Proof.Machine

/-! ## Flat addresses -/

/-- Entry `i` of table `k` is the byte at its flat address (20_memory.md R41). -/
theorem memRead_romAddr (m : Memory) (k : WaveKind) (i : Byte) :
    memRead m (romAddr k i) = some (romRead m k i) := by
  simp [memRead, romAddr_div, romAddr_mod]

/-- The numbers of R80's list are those of `kindNumber`. -/
theorem kindNumber_of_mem {p : WaveKind × Nat} (h : p ∈ kindsByNumber) : p.2 = kindNumber p.1 := by
  revert p
  decide

/-- Settles O52: the address is the entry's own, and from 1,280 on no kind has the address's number. -/
theorem romAddressesAreFlat : Obligations.RomAddressesAreFlat := by
  refine fun m => ⟨fun p hp i => ?_, fun a ha => ?_⟩
  · rw [kindNumber_of_mem hp]
    exact memRead_romAddr m p.1 i
  · have hnone : kindOfNumber? (a / 256) = none := kindOfNumber_eq_none.mpr (by omega)
    simp [memRead, hnone]

/-- The default ROM, the empty list, by its flat addresses. -/
theorem memRead_nil (k : WaveKind) {i : Nat} (h : i < 256) :
    memRead [] (256 * kindNumber k + i) = some (defaultSample k (BitVec.ofNat 8 i)) := by
  have haddr : romAddr k (BitVec.ofNat 8 i) = 256 * kindNumber k + i := by
    rw [romAddr, BitVec.toNat_ofNat, Nat.mod_eq_of_lt h]
  rw [← haddr, memRead_romAddr]
  rfl

/-- Settles O51: the four tables of R49 and R50, each at the base 256 times its kind's number. -/
theorem defaultTablesAtTheirAddresses : Obligations.DefaultTablesAtTheirAddresses := by
  intro i hi
  have hindex : (BitVec.ofNat 8 i).toNat = i := Nat.mod_eq_of_lt hi
  refine ⟨(memRead_nil .triangle hi).trans ?_, memRead_nil .sawtooth hi, (memRead_nil .reverseSawtooth hi).trans ?_,
    (memRead_nil .square hi).trans ?_⟩
  · rw [defaultSample, hindex]
    split <;> rfl
  · rw [defaultSample, hindex]
  · rw [defaultSample, hindex]

/-! ## The canonical list -/

/-- A list in canonical form: its first cell belongs in it, and the rest stands at higher addresses. -/
theorem wfFrom_cons {lo a : Nat} {b : Byte} {m : Memory} :
    wfFrom lo ((a, b) :: m) = true ↔ lo ≤ a ∧ cellOk a b = true ∧ wfFrom (a + 1) m = true := by
  simp [wfFrom, and_assoc]

/-- Reading a list by its first cell. -/
theorem romRead_cons (a : Nat) (b : Byte) (m : Memory) (k : WaveKind) (i : Byte) :
    romRead ((a, b) :: m) k i = if romAddr k i = a then b else romRead m k i := by
  by_cases h : romAddr k i = a
  · simp [romRead, h]
  · simp [romRead, List.lookup_cons, beq_false_of_ne h, h]

/-- Below the bound of a canonical list every entry is the default one. -/
theorem romRead_of_lt {lo : Nat} {m : Memory} {k : WaveKind} {i : Byte} (h : wfFrom lo m = true)
    (hlt : romAddr k i < lo) : romRead m k i = defaultSample k i := by
  simp [romRead, lookup_of_lt h hlt]

/-- A cell that belongs in a list is at the address of some entry, whose default byte it does not hold. -/
theorem cellOk_entry {a : Nat} {b : Byte} (h : cellOk a b = true) :
    ∃ k i, romAddr k i = a ∧ b ≠ defaultSample k i := by
  unfold cellOk at h
  cases hk : kindOfNumber? (a / 256) with
  | none => simp [hk] at h
  | some k =>
    refine ⟨k, BitVec.ofNat 8 (a % 256), ?_, by simpa [hk] using h⟩
    have hdiv := kindOfNumber_eq_some hk
    rw [romAddr, BitVec.toNat_ofNat]
    omega

/-- A listed byte is not the default one, so a canonical list that reads alike has no bound above its address. -/
theorem le_of_reads_alike {lo a : Nat} {b : Byte} {m m' : Memory} (hcell : cellOk a b = true)
    (hm' : wfFrom lo m' = true) (hread : ∀ k i, romRead ((a, b) :: m) k i = romRead m' k i) : lo ≤ a := by
  by_contra hlt
  obtain ⟨k, i, rfl, hne⟩ := cellOk_entry hcell
  apply hne
  rw [← romRead_of_lt hm' (by omega : romAddr k i < lo), ← hread, romRead_cons, if_pos rfl]

/-- A list with a listed byte does not read as the default ROM, the empty list. -/
theorem not_reads_as_default {a : Nat} {b : Byte} {m : Memory} (hcell : cellOk a b = true) :
    ¬ ∀ k i, romRead ((a, b) :: m) k i = romRead [] k i :=
  fun hread => Nat.not_succ_le_self a (le_of_reads_alike hcell rfl hread)

/-- Two canonical lists that read alike are equal: neither can list an address the other does not, so they begin with
the same cell, and their tails read alike. -/
theorem eq_of_reads_alike {m m' : Memory} : ∀ {lo : Nat}, wfFrom lo m = true → wfFrom lo m' = true →
    (∀ k i, romRead m k i = romRead m' k i) → m = m' := by
  induction m generalizing m' with
  | nil =>
    intro lo _ hm' hread
    cases m' with
    | nil => rfl
    | cons c' m' =>
      obtain ⟨-, hcell', -⟩ := wfFrom_cons.mp hm'
      exact absurd (fun k i => (hread k i).symm) (not_reads_as_default hcell')
  | cons c m ih =>
    obtain ⟨a, b⟩ := c
    intro lo hm hm' hread
    obtain ⟨-, hcell, htail⟩ := wfFrom_cons.mp hm
    cases m' with
    | nil => exact absurd hread (not_reads_as_default hcell)
    | cons c' m' =>
      obtain ⟨a', b'⟩ := c'
      obtain ⟨-, hcell', htail'⟩ := wfFrom_cons.mp hm'
      have hle := le_of_reads_alike hcell (wfFrom_cons.mpr ⟨le_refl a', hcell', htail'⟩) hread
      have hge := le_of_reads_alike hcell' (wfFrom_cons.mpr ⟨le_refl a, hcell, htail⟩) fun k i => (hread k i).symm
      obtain rfl : a = a' := by omega
      obtain ⟨k, i, haddr, -⟩ := cellOk_entry hcell
      have hbyte : b = b' := by simpa [romRead_cons, haddr] using hread k i
      have hrest : ∀ k i, romRead m k i = romRead m' k i := by
        intro k i
        by_cases h : romAddr k i = a
        · rw [romRead_of_lt htail (by omega), romRead_of_lt htail' (by omega)]
        · simpa [romRead_cons, h] using hread k i
      rw [hbyte, ih htail htail' hrest]

/-- Settles O54: the canonical form is the one list whose cells are the bytes that differ from the default ones. -/
theorem romListIsCanonical : Obligations.RomListIsCanonical :=
  fun _ _ hm hm' hread => eq_of_reads_alike hm hm' hread

end Sys2Proof.Machine
end

section
/-! The command words (30_encoding.md R61 to R70): which words decode to which command. From it follow the round trips of
decoder and encoder, the answer to illegal words, the opcode map and the number of illegal words. -/

namespace Sys2Proof.Machine

/-! ## The decoder by the fields of the word -/

/-- A word with a command's opcode and operand decodes to it (30_encoding.md R70). -/
theorem decode_of_fields {w : Word} {i : Instr} (hop : (opcodeField w).toNat = (opcodeOf i).toNat)
    (harg : (operandField w).toNat = operandOf i) : decode w = .ok i := by
  rw [decode, hop, harg]
  cases i <;> rfl

/-- A word that decodes to a command has its opcode and its operand (30_encoding.md R70). -/
theorem fields_of_decode {w : Word} {i : Instr} (h : decode w = .ok i) :
    (opcodeField w).toNat = (opcodeOf i).toNat ∧ (operandField w).toNat = operandOf i := by
  simp only [decode] at h
  split_ifs at h with hsetf hselw hres harg
  · cases h
    exact ⟨hsetf, rfl⟩
  · cases h
    exact ⟨hselw, rfl⟩
  · have harg0 : (operandField w).toNat = 0 := not_not.mp harg
    split at h <;> cases h <;> exact ⟨‹_›, harg0⟩

/-- The decoder on the numbers of the word's fields (30_encoding.md R61, R70). -/
theorem decode_eq_ok_iff {w : Word} {i : Instr} :
    decode w = .ok i ↔ w.toNat / 2 ^ 24 = (opcodeOf i).toNat ∧ w.toNat % 2 ^ 24 = operandOf i := by
  rw [← opcodeField_toNat, ← operandField_toNat]
  exact ⟨fields_of_decode, fun ⟨hop, harg⟩ => decode_of_fields hop harg⟩

/-- A word that is no command is an error of the decoder. -/
theorem decode_error_of_not_ok {w : Word} (h : ∀ i, decode w ≠ .ok i) : ∃ r, decode w = .error r := by
  cases hd : decode w with
  | ok i => exact absurd hd (h i)
  | error r => exact ⟨r, rfl⟩

/-- A command is well formed when its operand fits the field (30_encoding.md R61, R72). -/
theorem wf_iff {i : Instr} : i.wf = true ↔ operandOf i < 2 ^ 24 := by
  cases i <;> simp [Instr.wf, operandOf]

/-- The number of a well-formed command's word (30_encoding.md R61, R70). -/
theorem encode_toNat {i : Instr} (h : i.wf = true) :
    (encode i).toNat = (opcodeOf i).toNat * 2 ^ 24 + operandOf i :=
  Laws.append_toNat _ (wf_iff.mp h)

/-- Settles O3: the opcode and the operand are the quotient and the remainder of the word's number. -/
theorem decodeInvertsEncode : Obligations.DecodeInvertsEncode := by
  intro i hwf
  have hword := encode_toNat hwf
  have harg := wf_iff.mp hwf
  rw [decode_eq_ok_iff]
  omega

/-- Settles O4: the two fields determine the word. -/
theorem encodeInvertsDecode : Obligations.EncodeInvertsDecode := by
  intro w i hd
  obtain ⟨hop, harg⟩ := decode_eq_ok_iff.mp hd
  have hwf : i.wf = true := wf_iff.mpr (by omega)
  have hword := encode_toNat hwf
  exact ⟨hwf, BitVec.eq_of_toNat_eq (by omega)⟩

/-- A word decodes to a well-formed command exactly when it is the command's word (30_encoding.md R70). -/
theorem decode_eq_ok_iff_eq_encode {w : Word} {i : Instr} (hwf : i.wf = true) : decode w = .ok i ↔ w = encode i := by
  constructor
  · intro hd
    obtain ⟨-, hw⟩ := encodeInvertsDecode w i hd
    exact hw.symm
  · rintro rfl
    exact decodeInvertsEncode i hwf

/-- Settles O1: each arm of the table names a command's opcode and operand, and together the arms name every
command's. -/
theorem decodeFollowsTheTotalTable : Obligations.DecodeFollowsTheTotalTable := by
  intro w
  split
  case h_1 hop => exact decode_eq_ok_iff.mpr ⟨hop, rfl⟩
  case h_2 hop => exact decode_eq_ok_iff.mpr ⟨hop, rfl⟩
  case h_13 =>
    refine decode_error_of_not_ok fun i hd => ?_
    obtain ⟨hop, harg⟩ := decode_eq_ok_iff.mp hd
    cases i <;> simp_all [opcodeOf, operandOf]
  all_goals exact decode_eq_ok_iff.mpr ⟨‹_›, ‹_›⟩

/-- Settles O6, by evaluating the decoder. -/
theorem wordsOfTheTableDecode : Obligations.WordsOfTheTableDecode := by
  unfold Obligations.WordsOfTheTableDecode
  decide

/-! ## Illegal words on the command port -/

/-- A word that is no command is answered with ERR_ILLEGAL_CMD, and nothing else changes (30_encoding.md R66, R67,
44_system.md R141). -/
theorem acceptCommand_of_not_ok {w : Word} (h : ∀ i, decode w ≠ .ok i) (s : State) :
    acceptCommand w s = .next (answered s 0x03000000#32) := by
  obtain ⟨r, hr⟩ := decode_error_of_not_ok h
  rw [acceptCommand, hr]
  rfl

/-- The opcodes from 0x0C on are reserved (30_encoding.md R66). -/
theorem opcodeOf_lt (i : Instr) : (opcodeOf i).toNat < 0x0C := by
  cases i <;> simp [opcodeOf]

/-- Only SETF and SELW take an operand (30_encoding.md R67). -/
theorem opcodeOf_of_operandOf_ne_zero {i : Instr} (h : operandOf i ≠ 0) :
    (opcodeOf i).toNat = 0x01 ∨ (opcodeOf i).toNat = 0x02 := by
  cases i with
  | setf hz => exact .inl rfl
  | selw kind => exact .inr rfl
  | _ => exact absurd rfl h

/-- Settles O7: no command has a reserved opcode. -/
theorem reservedOpcodesAreIllegal : Obligations.ReservedOpcodesAreIllegal := by
  refine fun w s hop => acceptCommand_of_not_ok (fun i hd => ?_) s
  have hfields := decode_eq_ok_iff.mp hd
  have hlt := opcodeOf_lt i
  omega

/-- Settles O8: a command with a non-zero operand has the opcode of SETF or SELW. -/
theorem nonZeroOperandIsIllegal : Obligations.NonZeroOperandIsIllegal := by
  refine fun w s hop harg => acceptCommand_of_not_ok (fun i hd => ?_) s
  obtain ⟨hopi, hargi⟩ := decode_eq_ok_iff.mp hd
  have hcases := opcodeOf_of_operandOf_ne_zero (hargi ▸ harg)
  rw [← hopi] at hcases
  rcases hcases with h | h <;> rw [h] at hop <;> exact absurd hop (by decide)

/-! ## The opcode map -/

/-- The ten commands that take no operand (30_encoding.md R67). -/
def plainCommands : List Instr := [.nop, .en, .dis, .tgl, .rden, .rstph, .rdstep, .rdph, .rdw, .rdout]

/-- A command takes no operand, or it is SETF or SELW with its operand. -/
theorem plain_or_operand (i : Instr) :
    i ∈ plainCommands ∨ (∃ hz, i = .setf hz) ∨ ∃ kind, i = .selw kind := by
  cases i <;> simp [plainCommands]

/-- The commands without operand are well formed. -/
theorem wf_of_plain {i : Instr} (h : i ∈ plainCommands) : i.wf = true := by
  revert i
  decide

/-- The mnemonic of SETF is that of no other command. -/
theorem mnemonicOf_eq_setf {i : Instr} : mnemonicOf i = "SETF" ↔ ∃ hz, i = .setf hz := by
  cases i <;> simp [mnemonicOf]

/-- The mnemonic of SELW is that of no other command. -/
theorem mnemonicOf_eq_selw {i : Instr} : mnemonicOf i = "SELW" ↔ ∃ kind, i = .selw kind := by
  cases i <;> simp [mnemonicOf]

/-- The mnemonic of a command without operand is that of no other command. -/
theorem eq_of_mnemonicOf_eq {i j : Instr} (hi : i ∈ plainCommands) (h : mnemonicOf j = mnemonicOf i) : j = i := by
  have hdistinct : ∀ i ∈ plainCommands, mnemonicOf i ≠ "SETF" ∧ mnemonicOf i ≠ "SELW" ∧
      ∀ j ∈ plainCommands, mnemonicOf j = mnemonicOf i → j = i := by decide
  obtain ⟨hsetf, hselw, hplain⟩ := hdistinct i hi
  rcases plain_or_operand j with hj | ⟨hz, rfl⟩ | ⟨kind, rfl⟩
  · exact hplain j hj h
  · exact absurd h.symm hsetf
  · exact absurd h.symm hselw

/-- The rows of the opcode map: a command without operand has its word under the full mask, SETF and SELW have their
opcode under the mask of the opcode field (30_encoding.md R63). -/
theorem row_cases {row : OpcodeRow} (h : row ∈ opcodeTable) :
    (∃ i ∈ plainCommands, row = ⟨mnemonicOf i, 0xFFFFFFFF#32, encode i⟩) ∨
    row = ⟨"SETF", 0xFF000000#32, 0x01#8 ++ 0#24⟩ ∨ row = ⟨"SELW", 0xFF000000#32, 0x02#8 ++ 0#24⟩ := by
  revert row
  decide

/-- The full mask keeps the whole word. -/
theorem and_fullMask (w : Word) : w &&& 0xFFFFFFFF#32 = w :=
  BitVec.and_allOnes

/-- The mask of the opcode field keeps that field alone (30_encoding.md R61). -/
theorem and_opcodeMask (w : Word) : w &&& 0xFF000000#32 = opcodeField w ++ 0#24 := by
  have hw : w = opcodeField w ++ operandField w := by
    exact (BitVec.extractLsb'_append_extractLsb'_eq_extractLsb' (start₁ := 0) (len₁ := 24) rfl).trans
      BitVec.extractLsb'_eq_self |>.symm
  have hmask : (0xFF000000#32 : Word) = BitVec.allOnes 8 ++ 0#24 := rfl
  conv_lhs => rw [hw, hmask, BitVec.and_append, BitVec.and_allOnes, BitVec.and_zero]

/-- The mask of the opcode field selects the words of a command with every operand. -/
theorem and_opcodeMask_eq_iff {w : Word} {op : Byte} {c : Nat → Instr} (hop : ∀ a, opcodeOf (c a) = op)
    (harg : ∀ a, operandOf (c a) = a) : w &&& 0xFF000000#32 = op ++ 0#24 ↔ ∃ a, decode w = .ok (c a) := by
  rw [and_opcodeMask, BitVec.append_left_inj, ← BitVec.toNat_inj, opcodeField_toNat]
  simp [decode_eq_ok_iff, hop, harg]

/-- A row selects exactly the words of its command (30_encoding.md R63). -/
theorem row_selects {row : OpcodeRow} (hrow : row ∈ opcodeTable) (w : Word) :
    w &&& row.mask = row.value ↔ ∃ i, decode w = .ok i ∧ mnemonicOf i = row.mnemonic := by
  rcases row_cases hrow with ⟨i, hi, rfl⟩ | rfl | rfl
  · rw [and_fullMask, ← decode_eq_ok_iff_eq_encode (wf_of_plain hi)]
    refine ⟨fun hd => ⟨i, hd, rfl⟩, ?_⟩
    rintro ⟨j, hd, hj⟩
    rwa [← eq_of_mnemonicOf_eq hi hj]
  · refine (and_opcodeMask_eq_iff (c := .setf) (fun _ => rfl) fun _ => rfl).trans ?_
    simp [mnemonicOf_eq_setf]
  · refine (and_opcodeMask_eq_iff (c := .selw) (fun _ => rfl) fun _ => rfl).trans ?_
    simp [mnemonicOf_eq_selw]

/-- Every command has its row (30_encoding.md R63). -/
theorem exists_row (i : Instr) : ∃ row ∈ opcodeTable, mnemonicOf i = row.mnemonic := by
  cases i <;> simp [mnemonicOf, opcodeTable]

/-- The rows have different mnemonics. -/
theorem opcodeTable_mnemonics : opcodeTable.Pairwise fun r r' => r.mnemonic ≠ r'.mnemonic := by
  decide

/-- Settles O2: a row selects the words of its command, the rows' commands differ, and every command has a row. -/
theorem opcodeRowsSelectTheirCommands : Obligations.OpcodeRowsSelectTheirCommands := by
  refine ⟨fun w row hrow => row_selects hrow w, opcodeTable_mnemonics.imp_of_mem ?_, fun w hnone => ?_⟩
  · rintro r r' hr hr' hne w ⟨hw, hw'⟩
    obtain ⟨i, hd, hi⟩ := (row_selects hr w).mp hw
    obtain ⟨j, hd', hj⟩ := (row_selects hr' w).mp hw'
    cases hd.symm.trans hd'
    exact hne (hi.symm.trans hj)
  · refine decode_error_of_not_ok fun i hd => ?_
    obtain ⟨row, hrow, hi⟩ := exists_row i
    exact hnone row hrow ((row_selects hrow w).mpr ⟨i, hd, hi⟩)

/-! ## The number of illegal words -/

/-- The numbers of the words of the ten commands that take no operand. -/
def plainWords : Finset Nat := (plainCommands.map fun i => (encode i).toNat).toFinset

/-- The ten words are different. -/
theorem card_plainWords : plainWords.card = 10 := by
  decide

/-- The ten words do not have the opcodes 1 and 2. -/
theorem disjoint_plainWords : Disjoint plainWords (Finset.Ico (1 * 2 ^ 24) (3 * 2 ^ 24)) := by
  have hout : ∀ n ∈ plainWords, n < 1 * 2 ^ 24 ∨ 3 * 2 ^ 24 ≤ n := by decide
  refine Finset.disjoint_left.mpr fun n hn hmem => ?_
  have hn := hout n hn
  have hmem := Finset.mem_Ico.mp hmem
  omega

/-- The words of the commands without operand. -/
theorem mem_plainWords {n : Nat} (hn : n < 2 ^ 32) :
    n ∈ plainWords ↔ ∃ i ∈ plainCommands, decode (BitVec.ofNat 32 n) = .ok i := by
  simp only [plainWords, List.mem_toFinset, List.mem_map]
  refine exists_congr fun i => and_congr_right fun hi => ?_
  rw [decode_eq_ok_iff_eq_encode (wf_of_plain hi), ← BitVec.toNat_inj, BitVec.toNat_ofNat, Nat.mod_eq_of_lt hn, eq_comm]

/-- The words of SETF and SELW are those with the opcodes 1 and 2. -/
theorem mem_operandWords {n : Nat} (hn : n < 2 ^ 32) : n ∈ Finset.Ico (1 * 2 ^ 24) (3 * 2 ^ 24) ↔
    (∃ hz, decode (BitVec.ofNat 32 n) = .ok (.setf hz)) ∨ ∃ kind, decode (BitVec.ofNat 32 n) = .ok (.selw kind) := by
  simp only [decode_eq_ok_iff, BitVec.toNat_ofNat, Nat.mod_eq_of_lt hn, opcodeOf, operandOf, Finset.mem_Ico,
    exists_and_left, exists_eq', and_true]
  omega

/-- The words that decode to a command: ten, and those with the opcodes 1 and 2 (30_encoding.md R63). -/
theorem decodes_iff {n : Nat} (hn : n < 2 ^ 32) :
    (decode (BitVec.ofNat 32 n)).isOk = true ↔ n ∈ plainWords ∪ Finset.Ico (1 * 2 ^ 24) (3 * 2 ^ 24) := by
  rw [Finset.mem_union, mem_plainWords hn, mem_operandWords hn]
  cases hd : decode (BitVec.ofNat 32 n) with
  | error r => simp [Except.isOk, Except.toBool]
  | ok i => simpa [Except.isOk, Except.toBool] using plain_or_operand i

/-- They are all below 2^32. -/
theorem lt_of_mem_decodes {n : Nat} (h : n ∈ plainWords ∪ Finset.Ico (1 * 2 ^ 24) (3 * 2 ^ 24)) : n < 2 ^ 32 := by
  have hplain : ∀ n ∈ plainWords, n < 2 ^ 32 := by decide
  rcases Finset.mem_union.mp h with hmem | hmem
  · exact hplain n hmem
  · have hbounds := Finset.mem_Ico.mp hmem
    omega

/-- The words that decode to a command, counted. -/
theorem card_decodes :
    ((Finset.range (2 ^ 32)).filter fun n => (decode (BitVec.ofNat 32 n)).isOk = true).card = 10 + 2 * 2 ^ 24 := by
  have hset : (Finset.range (2 ^ 32)).filter (fun n => (decode (BitVec.ofNat 32 n)).isOk = true) =
      plainWords ∪ Finset.Ico (1 * 2 ^ 24) (3 * 2 ^ 24) := by
    ext n
    rw [Finset.mem_filter, Finset.mem_range]
    exact ⟨fun ⟨hn, hd⟩ => (decodes_iff hn).mp hd,
      fun hmem => ⟨lt_of_mem_decodes hmem, (decodes_iff (lt_of_mem_decodes hmem)).mpr hmem⟩⟩
  rw [hset, Finset.card_union_of_disjoint disjoint_plainWords, card_plainWords, Nat.card_Ico]
  omega

/-- A test that succeeds on `k` members of a set of `k + m` fails on the other `m`. -/
theorem card_filter_eq_false {s : Finset Nat} {p : Nat → Bool} {k m : Nat} (hs : s.card = k + m)
    (hp : (s.filter fun n => p n = true).card = k) : (s.filter fun n => p n = false).card = m := by
  have h := Finset.card_filter_add_card_filter_not (s := s) (p · = true)
  simp only [Bool.not_eq_true] at h
  omega

/-- Settles O5: ten words and those of two opcodes are commands, all others of the 2^32 are illegal. -/
theorem illegalWordsCounted : Obligations.IllegalWordsCounted :=
  card_filter_eq_false ((Finset.card_range _).trans (by norm_num)) card_decodes

end Sys2Proof.Machine
end

section
/-! The assembler reads back what `writeLine` writes (30_encoding.md R72): the digits, the operand, the pieces of the line. -/

namespace Sys2Proof.Machine

/-! ## The operand -/

/-- A hexadecimal digit as written reads as its value. -/
theorem digitValue_hexDigit : ∀ d < 16, digitValue 16 (hexDigit d) = some d := by
  decide

/-- Written digits read as the number they spell in base 16, after `acc`. -/
theorem digitsValue_map_hexDigit {ds : List Nat} (h : ∀ d ∈ ds, d < 16) (acc : Nat) :
    digitsValue 16 (ds.map hexDigit) acc = some (ds.foldl (fun a d => a * 16 + d) acc) := by
  induction ds generalizing acc with
  | nil => rfl
  | cons d ds ih =>
    rw [List.forall_mem_cons] at h
    obtain ⟨hd, hds⟩ := h
    simp [digitsValue, digitValue_hexDigit d hd, ih hds]

/-- The six digits of an operand, the most significant first. -/
def operandDigits (n : Nat) : List Nat := [5, 4, 3, 2, 1, 0].map fun p => n / 16 ^ p % 16

/-- Each of them is a digit. -/
theorem operandDigits_lt {n d : Nat} (h : d ∈ operandDigits n) : d < 16 := by
  obtain ⟨p, -, rfl⟩ := List.mem_map.mp h
  exact Nat.mod_lt _ (by decide)

/-- Six hexadecimal digits spell an operand of 24 bits. -/
theorem operandDigits_value {n : Nat} (h : n < 2 ^ 24) :
    (operandDigits n).foldl (fun a d => a * 16 + d) 0 = n := by
  simp only [operandDigits, List.map_cons, List.map_nil, List.foldl_cons, List.foldl_nil]
  omega

/-- An operand is written as `0x` and its digits. -/
theorem writeOperand_eq (n : Nat) : writeOperand n = '0' :: 'x' :: (operandDigits n).map hexDigit := rfl

/-- A written operand of 24 bits reads as its number (30_encoding.md R72). -/
theorem readNumber_writeOperand {n : Nat} (h : n < 2 ^ 24) : readNumber (writeOperand n) = some n := by
  have hdigits : readNumber (writeOperand n) = digitsValue 16 ((operandDigits n).map hexDigit) 0 := rfl
  rw [hdigits, digitsValue_map_hexDigit fun d => operandDigits_lt, operandDigits_value h]

/-- A written operand that is none of the allowed names reads as its number (30_encoding.md R72). -/
theorem operandBelow_writeOperand {names : List (List Char × Nat)} {n : Nat} (h : n < 2 ^ 24)
    (hnames : names.lookup (writeOperand n) = none) : operandBelow (2 ^ 24) names (writeOperand n) = .ok n := by
  have hread : readOperand names (writeOperand n) = some n := by
    rw [readOperand, hnames]
    exact readNumber_writeOperand h
  rw [operandBelow, hread]
  exact if_pos h

/-! ## The line -/

/-- A character that neither separates the pieces of a line nor starts a comment (30_encoding.md R72). -/
def isText (c : Char) : Bool := !(c == ' ' || c == '\t') && c != ';'

/-- No character of a text separates pieces or starts a comment. -/
theorem text_chars {t : List Char} (h : t.all isText = true) :
    (∀ c ∈ t, (c == ' ' || c == '\t') = false) ∧ ∀ c ∈ t, (c != ';') = true := by
  simp only [List.all_eq_true, isText, Bool.and_eq_true, Bool.not_eq_true'] at h
  exact ⟨fun c hc => (h c hc).1, fun c hc => (h c hc).2⟩

/-- Without a separator the text is one piece. -/
theorem pieces_of_no_sep {sep : Char → Bool} {t : List Char} (h : ∀ c ∈ t, sep c = false) (cur : List Char)
    (hne : cur ++ t ≠ []) : pieces sep t cur = [cur ++ t] := by
  induction t generalizing cur with
  | nil => simp_all [pieces]
  | cons c t ih =>
    obtain ⟨hc, ht⟩ := List.forall_mem_cons.mp h
    simp [pieces, hc, ih ht]

/-- The first piece ends at the first separator. -/
theorem pieces_append_sep {sep : Char → Bool} {m t : List Char} {c : Char} (h : ∀ c ∈ m, sep c = false)
    (hc : sep c = true) (cur : List Char) (hne : cur ++ m ≠ []) :
    pieces sep (m ++ c :: t) cur = (cur ++ m) :: pieces sep t [] := by
  induction m generalizing cur with
  | nil => simp_all [pieces]
  | cons d m ih =>
    obtain ⟨hd, hm⟩ := List.forall_mem_cons.mp h
    simp [pieces, hd, ih hm]

/-- A line of one piece is looked up among the lines without operand. -/
theorem assembleLine_plain {m : List Char} {e : Event} (hm : m.all isText = true) (hne : m ≠ [])
    (he : plainLines.lookup m = some e) : assembleLine m = .ok [e] := by
  obtain ⟨hsep, hcomment⟩ := text_chars hm
  rw [assembleLine, List.takeWhile_eq_self_iff.mpr hcomment, pieces_of_no_sep hsep [] hne]
  simp [he]

/-- A line of two pieces is read as a mnemonic and its operand. -/
theorem assembleLine_operand {m t : List Char} (hm : m.all isText = true) (hm0 : m ≠ []) (ht : t.all isText = true)
    (ht0 : t ≠ []) : assembleLine (m ++ ' ' :: t) = operandLine m t := by
  obtain ⟨hmsep, hmcomment⟩ := text_chars hm
  obtain ⟨htsep, htcomment⟩ := text_chars ht
  have hcomment : (m ++ ' ' :: t).takeWhile (fun c => c != ';') = m ++ ' ' :: t := by
    rw [List.takeWhile_eq_self_iff, List.forall_mem_append, List.forall_mem_cons]
    exact ⟨hmcomment, rfl, htcomment⟩
  rw [assembleLine, hcomment, pieces_append_sep hmsep rfl [] hm0, pieces_of_no_sep htsep [] ht0]
  rfl

/-- A written operand is text. -/
theorem isText_writeOperand (n : Nat) : (writeOperand n).all isText = true := by
  have hdigit : ∀ d < 16, isText (hexDigit d) = true := by decide
  have hdigits : ((operandDigits n).map hexDigit).all isText = true := by
    rw [List.all_map, List.all_eq_true]
    exact fun d hd => hdigit d (operandDigits_lt hd)
  rw [writeOperand_eq, List.all_cons, List.all_cons, hdigits]
  rfl

/-- A mnemonic and a written operand are read as the two of them. -/
theorem assembleLine_writeOperand {m : List Char} (hm : m.all isText = true) (hm0 : m ≠ []) (n : Nat) :
    assembleLine (m ++ ' ' :: writeOperand n) = operandLine m (writeOperand n) :=
  assembleLine_operand hm hm0 (isText_writeOperand n) (List.cons_ne_nil _ _)

/-- A command without operand is written as one piece, which the assembler's list of such lines holds. -/
theorem plainLines_writeLine {i : Instr} (h : i ∈ plainCommands) :
    (writeLine i).all isText = true ∧ writeLine i ≠ [] ∧
      plainLines.lookup (writeLine i) = some (.cmd (encode i)) := by
  revert i
  decide

/-- SETF and its written operand are assembled to the command's word (30_encoding.md R72). -/
theorem assembleLine_setf {hz : Nat} (h : hz < 2 ^ 24) :
    assembleLine (writeLine (.setf hz)) = .ok [.cmd (encode (.setf hz))] := by
  have hline : assembleLine (writeLine (.setf hz)) = operandLine ['S', 'E', 'T', 'F'] (writeOperand hz) :=
    assembleLine_writeOperand (m := ['S', 'E', 'T', 'F']) rfl (List.cons_ne_nil _ _) hz
  rw [hline, operandLine, if_pos rfl, operandBelow_writeOperand h rfl]
  rfl

/-- SELW and its written operand are assembled to the command's word (30_encoding.md R72). -/
theorem assembleLine_selw {kind : Nat} (h : kind < 2 ^ 24) :
    assembleLine (writeLine (.selw kind)) = .ok [.cmd (encode (.selw kind))] := by
  have hline : assembleLine (writeLine (.selw kind)) = operandLine ['S', 'E', 'L', 'W'] (writeOperand kind) :=
    assembleLine_writeOperand (m := ['S', 'E', 'L', 'W']) rfl (List.cons_ne_nil _ _) kind
  rw [hline, operandLine, if_neg (by decide), if_pos rfl, operandBelow_writeOperand h rfl]
  rfl

/-- Settles O56: the line is one piece, or a mnemonic and six digits that spell the operand. -/
theorem assemblerReadsWrittenCommands : Obligations.AssemblerReadsWrittenCommands := by
  intro i hwf
  rcases plain_or_operand i with hi | ⟨hz, rfl⟩ | ⟨kind, rfl⟩
  · obtain ⟨htext, hne, hline⟩ := plainLines_writeLine hi
    exact assembleLine_plain htext hne hline
  · exact assembleLine_setf (wf_iff.mp hwf)
  · exact assembleLine_selw (wf_iff.mp hwf)

end Sys2Proof.Machine
end

section
/-! The waveform table multiplexer's SELW (40_waveform_table.md R80, R81): a kind's own number selects it, every other operand
is rejected. -/

namespace Sys2Proof.Machine

/-- The response OK with a number that fits the data field is that number (30_encoding.md R64). -/
theorem respond_ok_ofNat {n : Nat} (h : n < 2 ^ 24) (s : State) :
    respond .ok (BitVec.ofNat 24 n) s = answered s (BitVec.ofNat 32 n) := by
  have hword : refRsp 0 n = BitVec.ofNat 32 n := by rw [refRsp, Nat.zero_mul, Nat.zero_add]
  rw [← hword]
  exact respond_eq_answered .ok s (Nat.mod_eq_of_lt h)

/-- SELW of a kind's number writes that kind to WSEL and answers the number (40_waveform_table.md R81). -/
theorem exec_selw_kindNumber (k : WaveKind) (s : State) :
    exec (.selw (kindNumber k)) s =
      .next (answered { s with wsel := k } (BitVec.ofNat 32 (kindNumber k))) := by
  have hfits : kindNumber k < 2 ^ 24 := (kindNumber_lt k).trans (by decide)
  simp only [exec, execSelw, kindOfNumber_kindNumber, respond_ok_ofNat hfits]
  rfl

/-- SELW of an operand above 4 is answered with ERR_WAVE_KIND and writes nothing (40_waveform_table.md R81). -/
theorem exec_selw_of_four_lt {kind : Nat} (h : 4 < kind) (s : State) :
    exec (.selw kind) s = .next (answered s 0x02000000#32) := by
  simp only [exec, execSelw, kindOfNumber_eq_none.mpr h]
  rfl

/-- Settles O10: the kinds' numbers are 0 to 4, and no kind has a larger one. -/
theorem selwSelectsOrRejects : Obligations.SelwSelectsOrRejects := by
  refine fun s => ⟨fun p hp => ?_, fun kind h => exec_selw_of_four_lt h s⟩
  rw [kindNumber_of_mem hp]
  exact exec_selw_kindNumber p.1 s

end Sys2Proof.Machine
end

section
/-! The DDS engine (41_dds_engine.md R90 to R102): one running Tick, the closed form of n Ticks with its wraps, the
period, and single waveform cycles. Every count follows from one equation: `p0 + n * s` is 2^24 times the wraps plus PHASE. -/

namespace Sys2Proof.Machine

/-! ## One Tick -/

/-- The index of the engine as the statements write it (41_dds_engine.md R95). -/
theorem highByte_eq_ofNat (p : Word24) : highByte p = BitVec.ofNat 8 (p.toNat / 2 ^ 16) := by
  rw [← highByte_toNat, BitVec.ofNat_toNat, BitVec.setWidth_eq]

theorem tick_phase_running {s : State} (h : s.en = true) : (tick s).phase = s.phase + s.step := by
  rw [tick_running h, portWrite_phase, setPhase_phase]

theorem tick_out_running {s : State} (h : s.en = true) : (tick s).out =
    romRead s.cfg.val.waveRom s.wsel (BitVec.ofNat 8 ((s.phase + s.step).toNat / 2 ^ 16)) := by
  rw [tick_running h, portWrite_out, highByte_eq_ofNat]

theorem tick_trace_running {s : State} (h : s.en = true) : (tick s).trace =
    s.trace ++ [romRead s.cfg.val.waveRom s.wsel (BitVec.ofNat 8 ((s.phase + s.step).toNat / 2 ^ 16))] := by
  rw [tick_running h, portWrite_trace, setPhase_trace, highByte_eq_ofNat]

/-- Settles O19: the two modes of a Tick. -/
theorem tickAdvancesThenEmits : Obligations.TickAdvancesThenEmits := by
  refine fun s => ⟨tick_halted, fun h => ⟨s.phase + s.step, BitVec.toNat_add .., ?_⟩⟩
  rw [tick_running h, highByte_eq_ofNat]
  rfl

/-! ## Commands between two Ticks -/

/-- Settles O12: from PHASE 0 a running Tick indexes with STEP itself. -/
theorem rstphRestartsThePhase : Obligations.RstphRestartsThePhase := by
  refine fun s => ⟨rfl, fun h => ?_, Nat.div_eq_zero_iff_lt (by decide)⟩
  rw [tick_trace_running (s := answered { s with phase := 0#24 } 0x00000000#32) h]
  simp [answered]

/-- SETF writes STEP at most, accepted or not (42_frequency_controller.md R113). -/
theorem exec_setf_frame {hz : Nat} {s t : State} (h : exec (.setf hz) s = .next t) :
    ∃ v w, t = answered { s with step := v } w := by
  change execSetf hz s = .next t at h
  rw [execSetf_eq_answered] at h
  split at h <;> cases h
  · exact ⟨_, _, rfl⟩
  · exact ⟨s.step, _, rfl⟩

/-- SELW writes WSEL at most, accepted or not (40_waveform_table.md R81). -/
theorem exec_selw_frame {kind : Nat} {s t : State} (h : exec (.selw kind) s = .next t) :
    ∃ k w, t = answered { s with wsel := k } w := by
  cases hk : kindOfNumber? kind with
  | some k =>
    rw [kindOfNumber_eq_some hk, exec_selw_kindNumber] at h
    cases h
    exact ⟨k, _, rfl⟩
  | none =>
    rw [exec_selw_of_four_lt (kindOfNumber_eq_none.mp hk)] at h
    cases h
    exact ⟨s.wsel, _, rfl⟩

/-- Settles O24: either command leaves a state that differs by its one register and its response, and the next Tick runs
from there. -/
theorem phaseIsContinuous : Obligations.PhaseIsContinuous := by
  refine fun s hrun => ⟨fun hz t h => ?_, fun k t h => ?_⟩
  · obtain ⟨v, w, rfl⟩ := exec_setf_frame h
    exact ⟨rfl, tick_phase_running (s := answered { s with step := v } w) hrun⟩
  · obtain ⟨k, w, rfl⟩ := exec_selw_frame h
    exact ⟨rfl, tick_phase_running (s := answered { s with wsel := k } w) hrun, rfl,
      tick_out_running (s := answered { s with wsel := k } w) hrun⟩

/-! ## Runs of Ticks -/

/-- What one Tick keeps, any number of Ticks keep. -/
theorem iterate_tick_of_tick {α : Type} {f : State → α} (h : ∀ s, f (tick s) = f s) (s : State) (n : Nat) :
    f (tick^[n] s) = f s := by
  induction n with
  | zero => rfl
  | succ n ih => rw [Function.iterate_succ_apply', h, ih]

@[simp] theorem iterate_tick_cfg (s : State) (n : Nat) : (tick^[n] s).cfg = s.cfg := iterate_tick_of_tick tick_cfg s n
@[simp] theorem iterate_tick_step (s : State) (n : Nat) : (tick^[n] s).step = s.step := iterate_tick_of_tick tick_step s n
@[simp] theorem iterate_tick_wsel (s : State) (n : Nat) : (tick^[n] s).wsel = s.wsel := iterate_tick_of_tick tick_wsel s n
@[simp] theorem iterate_tick_en (s : State) (n : Nat) : (tick^[n] s).en = s.en := iterate_tick_of_tick tick_en s n

/-- One more Tick is one more wrap exactly when it carries out of bit 23. -/
theorem wrapCount_succ (s : State) (n : Nat) : wrapCount s (n + 1) =
    wrapCount s n + if 2 ^ 24 ≤ (tick^[n] s).phase.toNat + s.step.toNat then 1 else 0 := by
  simp only [wrapCount, List.range_succ, List.filter_append, List.length_append, List.filter_singleton,
    Bool.cond_decide]
  split <;> rfl

section running
variable {s : State} (h : s.en = true)
include h

/-- The 24-bit adder of the next Tick (41_dds_engine.md R94). -/
theorem iterate_tick_succ_phase (i : Nat) :
    (tick^[i + 1] s).phase.toNat = ((tick^[i] s).phase.toNat + s.step.toNat) % 2 ^ 24 := by
  have hen : (tick^[i] s).en = true := (iterate_tick_en s i).trans h
  rw [Function.iterate_succ_apply', tick_phase_running hen, BitVec.toNat_add, iterate_tick_step]

/-- A Tick that does not wrap adds STEP. -/
theorem phase_succ_of_not_wraps {i : Nat} (hw : ¬ wrapsAt s i) :
    (tick^[i + 1] s).phase.toNat = (tick^[i] s).phase.toNat + s.step.toNat := by
  rw [iterate_tick_succ_phase h, Nat.mod_eq_of_lt (Nat.not_le.mp hw)]

/-- A Tick that wraps adds STEP and drops the carry. -/
theorem phase_succ_of_wraps {i : Nat} (hw : wrapsAt s i) :
    (tick^[i + 1] s).phase.toNat + 2 ^ 24 = (tick^[i] s).phase.toNat + s.step.toNat := by
  have hlt := (tick^[i] s).phase.isLt
  have hstep := s.step.isLt
  rw [iterate_tick_succ_phase h]
  unfold wrapsAt at hw
  omega

/-- Without the 24-bit limit PHASE would stand at `p0 + n * s`; each wrap has taken 2^24 of it (41_dds_engine.md R97). -/
theorem wrapCount_add_phase (n : Nat) :
    2 ^ 24 * wrapCount s n + (tick^[n] s).phase.toNat = s.phase.toNat + n * s.step.toNat := by
  induction n with
  | zero => simp [wrapCount]
  | succ n ih =>
    rw [wrapCount_succ, Nat.succ_mul]
    split
    · next hw =>
      have := phase_succ_of_wraps h hw
      omega
    · next hw =>
      have := phase_succ_of_not_wraps h hw
      omega

theorem iterate_tick_phase (n : Nat) :
    (tick^[n] s).phase.toNat = (s.phase.toNat + n * s.step.toNat) % 2 ^ 24 := by
  rw [← wrapCount_add_phase h, Nat.mul_add_mod, Nat.mod_eq_of_lt (BitVec.isLt _)]

theorem wrapCount_eq_div (n : Nat) : wrapCount s n = (s.phase.toNat + n * s.step.toNat) / 2 ^ 24 := by
  rw [← wrapCount_add_phase h, Nat.mul_add_div (by decide), Nat.div_eq_of_lt (BitVec.isLt _), Nat.add_zero]

theorem iterate_tick_trace (n : Nat) :
    (tick^[n] s).trace = s.trace ++ (List.range n).map fun k => romRead s.cfg.val.waveRom s.wsel
      (BitVec.ofNat 8 ((s.phase.toNat + (k + 1) * s.step.toNat) % 2 ^ 24 / 2 ^ 16)) := by
  induction n with
  | zero => simp
  | succ n ih =>
    have hen : (tick^[n] s).en = true := (iterate_tick_en s n).trans h
    have hphase := iterate_tick_phase h (n + 1)
    rw [Function.iterate_succ_apply', tick_phase_running hen] at hphase
    rw [Function.iterate_succ_apply', tick_trace_running hen, ih, hphase, List.range_succ, List.map_append,
      List.append_assoc, iterate_tick_cfg, iterate_tick_wsel, List.map_singleton]

end running

/-- Settles O20, from the equation that links the wraps and PHASE. -/
theorem ticksHaveClosedForm : Obligations.TicksHaveClosedForm :=
  fun _ n h => ⟨iterate_tick_phase h n, iterate_tick_trace h n, wrapCount_eq_div h n⟩

/-! ## The period -/

/-- Multiples of `c` agree modulo `m` exactly when the factors agree modulo `m / gcd c m`. -/
theorem mul_modEq_iff {a b c m : Nat} (hm : 0 < m) : a * c ≡ b * c [MOD m] ↔ a ≡ b [MOD m / Nat.gcd c m] := by
  refine ⟨fun hab => Nat.gcd_comm m c ▸ hab.cancel_right_div_gcd hm, fun hab => ?_⟩
  have hdvd : m ∣ m / Nat.gcd c m * c :=
    ⟨c / Nat.gcd c m, by rw [Nat.div_mul_right_comm (Nat.gcd_dvd_right c m), Nat.mul_div_assoc m (Nat.gcd_dvd_left c m)]⟩
  exact (hab.mul_right' c).of_dvd hdvd

/-- Settles O21: PHASE after n Ticks is `p0 + n * s` modulo 2^24, and one period adds a multiple of 2^24. -/
theorem phasePeriodIsExact : Obligations.PhasePeriodIsExact := by
  refine fun s h => ⟨fun m n => ?_, ?_⟩
  · rw [← BitVec.toNat_inj, iterate_tick_phase h, iterate_tick_phase h, ← mul_modEq_iff (by decide)]
    exact Nat.ModEq.add_iff_left rfl
  · have hperiod : 2 ^ 24 / Nat.gcd s.step.toNat (2 ^ 24) * s.step.toNat =
        s.step.toNat / Nat.gcd s.step.toNat (2 ^ 24) * 2 ^ 24 := by
      rw [Nat.div_mul_right_comm (Nat.gcd_dvd_right ..), Nat.div_mul_right_comm (Nat.gcd_dvd_left ..), Nat.mul_comm]
    rw [wrapCount_eq_div h, hperiod, Nat.add_mul_div_right _ _ (by decide), Nat.div_eq_of_lt s.phase.isLt, Nat.zero_add]

/-! ## One waveform cycle -/

section cycle
variable {s : State} {a l : Nat} (h : s.en = true) (hc : cycleFrom s a l)
include h hc

/-- Within a cycle PHASE climbs by STEP from where the cycle's first Tick left it. -/
theorem phase_in_cycle {j : Nat} (hj : j < l) :
    (tick^[a + 1 + j] s).phase.toNat = (tick^[a + 1] s).phase.toNat + j * s.step.toNat := by
  obtain ⟨-, -, -, hno⟩ := hc
  induction j with
  | zero => simp
  | succ j ih =>
    have hw : ¬ wrapsAt s (a + 1 + j) := by
      rw [show a + 1 + j = a + (j + 1) by omega]
      exact hno (j + 1) (Nat.succ_pos j) hj
    rw [← Nat.add_assoc, phase_succ_of_not_wraps h hw, ih (by omega), Nat.succ_mul, Nat.add_assoc]

/-- A cycle begins below STEP, since its first Tick wrapped. -/
theorem cycle_start_lt : (tick^[a + 1] s).phase.toNat < s.step.toNat := by
  obtain ⟨-, hfirst, -⟩ := hc
  have := phase_succ_of_wraps h hfirst
  have := (tick^[a] s).phase.isLt
  omega

/-- A cycle ends with the first Tick that would carry PHASE to 2^24. -/
theorem cycle_end : (tick^[a + 1] s).phase.toNat + (l - 1) * s.step.toNat < 2 ^ 24 ∧
    2 ^ 24 ≤ (tick^[a + 1] s).phase.toNat + (l - 1) * s.step.toNat + s.step.toNat := by
  have hlast := phase_in_cycle h hc (j := l - 1) (Nat.sub_lt hc.1 Nat.one_pos)
  obtain ⟨hl, -, hwrap, -⟩ := hc
  rw [← hlast]
  refine ⟨BitVec.isLt _, ?_⟩
  rw [show a + 1 + (l - 1) = a + l by omega]
  exact hwrap

end cycle

/-- Climbing by `s` from below `s`, the first of the steps to reach `N` is number floor or ceiling of `N / s`. -/
theorem eq_floor_or_ceil {N s r k : Nat} (hr : r < s) (hbelow : r + k * s < N) (habove : N ≤ r + k * s + s) :
    k + 1 = N / s ∨ k + 1 = (N + s - 1) / s := by
  have hone : (k + 1) * s = k * s + s := Nat.succ_mul k s
  have htwo : (k + 1 + 1) * s = k * s + s + s := by rw [Nat.succ_mul, hone]
  rcases Nat.lt_or_ge N ((k + 1) * s) with hlt | hge
  · exact .inr (Nat.div_eq_of_lt_le (by omega) (by omega)).symm
  · exact .inl (Nat.div_eq_of_lt_le hge (by omega)).symm

/-- Settles O22: a cycle begins below STEP, and its last Tick is the first to reach 2^24. -/
theorem cyclesLastFloorOrCeiling : Obligations.CyclesLastFloorOrCeiling := by
  intro s a l h hstep hc
  obtain ⟨hbelow, habove⟩ := cycle_end h hc
  have hlength := eq_floor_or_ceil (cycle_start_lt h hc) hbelow habove
  rw [Nat.sub_add_cancel hc.1] at hlength
  refine ⟨hlength, fun hdvd => ?_⟩
  have hceil : (2 ^ 24 + s.step.toNat - 1) / s.step.toNat = 2 ^ 24 / s.step.toNat := by
    obtain ⟨q, hq⟩ := hdvd
    rw [hq, Nat.add_sub_assoc hstep, Nat.mul_add_div hstep, Nat.mul_div_cancel_left q hstep,
      Nat.div_eq_of_lt (Nat.sub_lt hstep Nat.one_pos), Nat.add_zero]
  exact hlength.elim id fun hl => hl.trans hceil

/-- Climbing by at most `w` from below `w` leaves out no interval of width `w`: the first of the steps to reach `i * w` is in
the interval that begins there. -/
theorem exists_div_eq {r d w : Nat} (hr : r < w) (hd0 : 0 < d) (hd : d ≤ w) (i : Nat) : ∃ j, (r + j * d) / w = i := by
  have hex : ∃ j, i * w ≤ r + j * d := ⟨i * w, Nat.le_add_left_of_le (Nat.le_mul_of_pos_right _ hd0)⟩
  have hlow := Nat.find_spec hex
  refine ⟨Nat.find hex, Nat.div_eq_of_lt_le hlow ?_⟩
  rw [Nat.succ_mul]
  cases hj : Nat.find hex with
  | zero => omega
  | succ k =>
    have hmin : ¬ i * w ≤ r + k * d := Nat.find_min hex (by omega)
    rw [Nat.succ_mul]
    omega

/-- Settles O23: PHASE climbs through the cycle by at most 2^16, the width of one index. -/
theorem smallStepsCoverTheTable : Obligations.SmallStepsCoverTheTable := by
  intro s a l h hstep hsmall hc i
  obtain ⟨-, habove⟩ := cycle_end h hc
  obtain ⟨j, hj⟩ := exists_div_eq ((cycle_start_lt h hc).trans_le hsmall) hstep hsmall i.toNat
  have hjl : j < l := by
    by_contra hge
    have hle : (l - 1) * s.step.toNat + s.step.toNat ≤ j * s.step.toNat := by
      rw [← Nat.succ_mul]
      exact Nat.mul_le_mul_right _ (by have := hc.1; omega)
    have := i.isLt
    omega
  exact ⟨j, hjl, by rw [phase_in_cycle h hc hjl, hj]⟩

end Sys2Proof.Machine
end

section
/-! The frequency controller (42_frequency_controller.md R111 to R118): SETF in and out of range, the rounding of CAL_Q and
the truncation of the step against the ideal constant, and the figures of T0. -/

namespace Sys2Proof.Machine

/-! ## SETF -/

/-- SETF of a frequency in range writes its whole step to STEP and answers it (42_frequency_controller.md R113). -/
theorem exec_setf_of_inRange {hz : Nat} {s : State} (hmin : s.cfg.val.minFreq ≤ hz) (hmax : hz ≤ s.cfg.val.maxFreq) :
    ∃ v : Word24, v.toNat = stepOf s.cfg.val hz ∧
      exec (.setf hz) s = .next (answered { s with step := v } (0x00#8 ++ v)) := by
  have hfits := stepOf_toNat s.cfg (freqInRange_iff.mpr ⟨hmin, hmax⟩)
  have hword := rspOf_eq_refRsp .ok (BitVec.ofNat 24 (stepOf s.cfg.val hz))
  rw [hfits] at hword
  refine ⟨_, hfits, (execSetf_eq_answered hz s).trans ?_⟩
  rw [if_pos ⟨hmin, hmax⟩]
  exact congrArg (fun w => Host.Outcome.next (answered _ w)) hword.symm

/-- SETF of a frequency out of range is answered with ERR_FREQ_RANGE and writes nothing (42_frequency_controller.md R113). -/
theorem exec_setf_of_outOfRange {hz : Nat} {s : State} (h : hz < s.cfg.val.minFreq ∨ s.cfg.val.maxFreq < hz) :
    exec (.setf hz) s = .next (answered s 0x01000000#32) :=
  (execSetf_eq_answered hz s).trans (if_neg (by omega))

/-- Settles O9: SETF on either side of the range check. -/
theorem setfInstallsTheStepOrRejects : Obligations.SetfInstallsTheStepOrRejects :=
  fun _ _ => ⟨exec_setf_of_inRange, exec_setf_of_outOfRange⟩

/-! ## Rounding against the ideal constant -/

/-- C, the ideal calibration constant: exact, where CAL_Q is rounded (42_frequency_controller.md R110). -/
def idealConstant (c : Config) : ℚ := 2 ^ 24 * c.tickCycles / c.clockHz

/-- CAL_Q is C in units of 2^-CAL_FRAC, plus a half, rounded down (42_frequency_controller.md R111). -/
theorem calQ_eq_floor {c : Config} (h : 1 ≤ c.clockHz) : calQ c = ⌊idealConstant c * 2 ^ c.calFrac + 1 / 2⌋₊ := by
  have hclock : (c.clockHz : ℚ) ≠ 0 := by positivity
  rw [calQ, ← Nat.floor_div_eq_div (K := ℚ)]
  congr 1
  push_cast [idealConstant]
  field_simp
  ring

/-- CAL_Q is within half a unit of C, ties upward (42_frequency_controller.md R111). -/
theorem calQ_bounds (c : HwConfig) :
    (calQ c.val : ℚ) - 1 / 2 ≤ idealConstant c.val * 2 ^ c.val.calFrac ∧
    idealConstant c.val * 2 ^ c.val.calFrac < (calQ c.val : ℚ) + 1 / 2 := by
  have hnonneg : 0 ≤ idealConstant c.val * 2 ^ c.val.calFrac + 1 / 2 := by unfold idealConstant; positivity
  have hle := Nat.floor_le hnonneg
  have hlt := Nat.lt_floor_add_one (idealConstant c.val * 2 ^ c.val.calFrac + 1 / 2)
  rw [← calQ_eq_floor (hwConfig_conditions c).1] at hle hlt
  constructor <;> linarith

/-- Settles O27: rounding down after adding a half is rounding to nearest with ties upward. -/
theorem calQIsRoundedToNearest : Obligations.CalQIsRoundedToNearest := calQ_bounds

/-- The step is the product with CAL_Q / 2^CAL_FRAC, truncated (42_frequency_controller.md R112). -/
theorem stepOf_bounds (c : Config) (hz : Nat) :
    hz * (calQ c / 2 ^ c.calFrac : ℚ) - 1 < stepOf c hz ∧ (stepOf c hz : ℚ) ≤ hz * (calQ c / 2 ^ c.calFrac) := by
  have hfloor : stepOf c hz = ⌊hz * (calQ c / 2 ^ c.calFrac : ℚ)⌋₊ := by
    rw [stepOf, ← Nat.floor_div_eq_div (K := ℚ)]
    push_cast
    rw [mul_div_assoc]
  rw [hfloor]
  exact ⟨Nat.sub_one_lt_floor _, Nat.floor_le (by positivity)⟩

/-- The constant the hardware holds is within 2^-(CAL_FRAC + 1) of C (42_frequency_controller.md R111). -/
theorem calibration_error (c : HwConfig) :
    idealConstant c.val - 1 / 2 ^ (c.val.calFrac + 1) ≤ calQ c.val / 2 ^ c.val.calFrac ∧
    calQ c.val / 2 ^ c.val.calFrac ≤ idealConstant c.val + 1 / 2 ^ (c.val.calFrac + 1) := by
  obtain ⟨hle, hlt⟩ := calQ_bounds c
  have hunit : (0 : ℚ) < 2 ^ c.val.calFrac := by positivity
  have hhalf : (1 : ℚ) / 2 ^ (c.val.calFrac + 1) = 1 / 2 / 2 ^ c.val.calFrac := by rw [pow_succ']; field_simp
  rw [hhalf, le_div_iff₀ hunit, div_le_iff₀ hunit, sub_mul, add_mul, div_mul_cancel₀ _ hunit.ne']
  constructor <;> linarith

/-- Settles O29: `hz` times the error of CAL_Q, and less than one unit for the truncation. -/
theorem stepIsAccurate : Obligations.StepIsAccurate := by
  intro c hz _ _ _
  obtain ⟨hcalLow, hcalHigh⟩ := calibration_error c
  obtain ⟨hlow, hhigh⟩ := stepOf_bounds c.val hz
  have hprodLow := mul_le_mul_of_nonneg_left hcalLow (Nat.cast_nonneg (α := ℚ) hz)
  have hprodHigh := mul_le_mul_of_nonneg_left hcalHigh (Nat.cast_nonneg (α := ℚ) hz)
  rw [mul_sub, mul_one_div] at hprodLow
  rw [mul_add, mul_one_div] at hprodHigh
  simp only [idealConstant] at hprodLow hprodHigh
  constructor <;> linarith

/-! ## Monotonicity, and the figures of T0 -/

/-- Neighbours differ by at least the whole part of the calibration constant (42_frequency_controller.md R116). -/
theorem stepOf_add_le_stepOf_succ (c : Config) (f : Nat) :
    stepOf c f + calQ c / 2 ^ c.calFrac ≤ stepOf c (f + 1) := by
  rw [stepOf, stepOf, Nat.add_one_mul]
  exact Nat.div_add_div_le_add_div

/-- The calibration constant is at least 1 (00_scope.md R9 WF5). -/
theorem one_le_calQ_div (c : HwConfig) : 1 ≤ calQ c.val / 2 ^ c.val.calFrac := by
  obtain ⟨-, -, -, -, -, hcal, -, -⟩ := hwConfig_conditions c
  exact Nat.div_pos hcal (by positivity)

theorem stepOf_strictMono (c : HwConfig) : StrictMono (stepOf c.val) :=
  strictMono_nat_of_lt_succ fun f =>
    (Nat.lt_add_of_pos_right (one_le_calQ_div c)).trans_le (stepOf_add_le_stepOf_succ c.val f)

/-- The conversion in T0, with CAL_Q = 329,853 (42_frequency_controller.md R111, R112). -/
theorem stepOf_t0 (f : Nat) : stepOf Config.t0 f = f * 329853 / 65536 := rfl

/-- Settles O28: the whole part of the calibration constant separates neighbours; in T0 the constant lies between 5 and 6. -/
theorem stepIsStrictlyIncreasing : Obligations.StepIsStrictlyIncreasing := by
  refine ⟨fun c _ _ h => stepOf_strictMono c h,
    fun c f => ⟨stepOf_add_le_stepOf_succ c.val f, one_le_calQ_div c⟩, fun f => ?_⟩
  rw [stepOf_t0, stepOf_t0]
  omega

/-- The relative error in T0 of the output frequency of 41_dds_engine.md R99 (42_frequency_controller.md R117). -/
def outputErrorT0 (f : Nat) : ℚ := |(stepOf Config.t0 f : ℚ) * 30000000 / (9 * 2 ^ 24) - f| / f

/-- In T0 CAL_Q is rounded down, so the output frequency is never above the request. -/
theorem outputErrorT0_eq {f : Nat} (hf : 1 ≤ f) :
    outputErrorT0 f = 1 - stepOf Config.t0 f / f * (30000000 / (9 * 2 ^ 24)) := by
  have hpos : (0 : ℚ) < f := by exact_mod_cast hf
  have hbelow : stepOf Config.t0 f * 30000000 ≤ f * (9 * 2 ^ 24) := by rw [stepOf_t0]; omega
  have hcast : (stepOf Config.t0 f : ℚ) * 30000000 ≤ f * (9 * 2 ^ 24) := by exact_mod_cast hbelow
  rw [outputErrorT0, abs_of_nonpos (by rw [sub_nonpos, div_le_iff₀ (by norm_num)]; exact hcast)]
  field_simp
  ring

/-- At 1 Hz the step is 5, for an ideal of 5.0331648 (42_frequency_controller.md R117). -/
theorem outputErrorT0_one : outputErrorT0 1 = 1 - 5 * (30000000 / (9 * 2 ^ 24)) := by
  have hstep : stepOf Config.t0 1 = 5 := rfl
  rw [outputErrorT0_eq le_rfl, hstep]
  norm_num

/-- In T0 the step per hertz is nowhere smaller than the 5 at 1 Hz, so the error is nowhere larger. -/
theorem outputErrorT0_le {f : Nat} (hf : 1 ≤ f) : outputErrorT0 f ≤ outputErrorT0 1 := by
  have hpos : (0 : ℚ) < f := by exact_mod_cast hf
  have hstep : 5 * f ≤ stepOf Config.t0 f := by rw [stepOf_t0]; omega
  have hratio : (5 : ℚ) ≤ stepOf Config.t0 f / f := (le_div_iff₀ hpos).mpr (by exact_mod_cast hstep)
  rw [outputErrorT0_eq hf, outputErrorT0_one]
  gcongr

/-- Settles O30: the error is largest at 1 Hz, and below 1 % there. -/
theorem testConfigurationWithinOnePercent : Obligations.TestConfigurationWithinOnePercent := by
  intro hz hpos _
  have hone : outputErrorT0 1 < 1 / 100 := by
    rw [outputErrorT0_one]
    norm_num
  exact ⟨outputErrorT0_le hpos, (outputErrorT0_le hpos).trans_lt hone⟩

/-- Settles O31: SETF 500 leaves PHASE and EN alone, and 3,333,333 Ticks of 2516 add up to 499 * 2^24 + 0xE25D64. -/
theorem workedExampleOfTheSource : Obligations.WorkedExampleOfTheSource := by
  intro s hcfg hphase hen
  obtain ⟨v, hv, hexec⟩ := exec_setf_of_inRange (s := s) (hz := 500) (by rw [hcfg]; decide) (by rw [hcfg]; decide)
  obtain rfl : v = 2516#24 := BitVec.eq_of_toNat_eq (by rw [hv, hcfg]; rfl)
  have hrun : (answered { s with step := 2516#24 } (0x00#8 ++ 2516#24)).en = true := hen
  refine ⟨_, hexec, rfl, rfl, ?_, BitVec.eq_of_toNat_eq ?_⟩
  · rw [wrapCount_eq_div hrun]
    simp [answered, hphase]
  · rw [iterate_tick_phase hrun]
    simp [answered, hphase]

end Sys2Proof.Machine
end

section
/-! The output gate (43_output_gate.md R125 to R131): what EN is after a command and over an edge, the commands EN, DIS and
TGL, and the silence of the Halted engine. A Halted Tick is the identity and a Tick passes over the response port, so a halt
leaves nothing behind but its responses. -/

namespace Sys2Proof.Machine

/-! ## The transitions of the gate -/

/-- EN after a word on the command port, by what the word decodes to (R125). -/
def gateAfter (e : Bool) : Except IllReason Instr → Bool
  | .ok .en => true
  | .ok .dis => false
  | .ok .tgl => !e
  | _ => e

/-- EN, DIS and TGL are the commands that write EN (10_state.md R26). -/
theorem CommandEffect.en_eq {s v : State} {i : Instr} {code : RspCode} {data : Word24}
    (h : CommandEffect s i code data v) : v.en = gateAfter s.en (.ok i) := by
  cases h with
  | nothing _ _ ha => rcases ha with rfl | rfl | rfl | rfl | rfl | rfl <;> rfl
  | setEn _ _ he => rcases he with ⟨rfl, rfl⟩ | ⟨rfl, rfl⟩ | ⟨rfl, rfl⟩ <;> rfl
  | _ => rfl

/-- EN after the command's half of an edge. -/
theorem commandPart_en {p : PinInputs} {s u : State} (h : commandPart p s = .next u) :
    u.en = if p.cmdValid then gateAfter s.en (decode p.cmdWord) else s.en := by
  rcases commandPart_cases h with ⟨hv, rfl⟩ | ⟨hv, r, hd, rfl⟩ | ⟨hv, i, code, data, v, hd, he, rfl⟩
  · simp [hv]
  · simp [hv, hd, gateAfter]
  · simpa [hv, hd] using he.en_eq

/-- EN after an edge: no Tick writes it (R125). -/
theorem step_en {s t : State} (h : step s = .next t) :
    t.en = if (pinsNow s).rst then false
      else if (pinsNow s).cmdValid then gateAfter s.en (decode (pinsNow s).cmdWord) else s.en := by
  rcases step_halves h with ⟨hr, rfl⟩ | ⟨hr, u, hu, rfl⟩
  · simp [hr]
  · simpa [hr] using commandPart_en hu

/-- Settles O42: on each kind of edge EN is what `step_en` says for the pins of that edge. -/
theorem gateTransitions : Obligations.GateTransitions := by
  refine ⟨fun s => by simp [gateState], fun s t h => ?_⟩
  have hen := step_en h
  cases hin : s.inputs with
  | nil => simpa [pinsNow, hin, idlePins] using hen
  | cons p ps =>
    have hp : pinsNow s = p := by simp [pinsNow, hin]
    rw [hp] at hen
    cases hr : p.rst with
    | true => simpa [hr] using hen
    | false =>
      cases hv : p.cmdValid with
      | false => simpa [hr, hv] using hen
      | true =>
        cases hd : decode p.cmdWord with
        | error r => simpa [hr, hv, hd, gateAfter] using hen
        | ok i => cases i <;> simpa [hr, hv, hd, gateAfter] using hen

/-! ## The commands EN, DIS and TGL -/

theorem exec_en (s : State) : exec .en s = .next (answered { s with en := true } 0x00000001#32) := rfl

theorem exec_dis (s : State) : exec .dis s = .next (answered { s with en := false } 0x00000000#32) := rfl

/-- From Halted, TGL is EN (R129). -/
theorem exec_tgl_halted {s : State} (h : s.en = false) : exec .tgl s = exec .en s := by
  simp only [exec, execTgl, h]
  rfl

/-- From Running, TGL is DIS (R129). -/
theorem exec_tgl_running {s : State} (h : s.en = true) : exec .tgl s = exec .dis s := by
  simp only [exec, execTgl, h]
  rfl

/-- TGL always answers, and EN is then the other of its two values (R129). -/
theorem exec_tgl_en (s : State) : ∃ t, exec .tgl s = .next t ∧ t.en = !s.en := ⟨_, rfl, rfl⟩

/-- No number of Halted Ticks changes anything (R128). -/
theorem iterate_tick_halted {s : State} (h : s.en = false) (n : Nat) : tick^[n] s = s :=
  Function.iterate_fixed (tick_halted h) n

/-- Settles O11: the Ticks after EN and DIS are a running one and Halted ones, and no Tick between two TGL writes EN. -/
theorem gateCommandsWriteEnAlone : Obligations.GateCommandsWriteEnAlone := by
  refine fun s n => ⟨exec_en s, ?_, exec_dis s, iterate_tick_halted rfl n,
    fun h => (exec_tgl_halted h).trans (exec_en s), fun h => (exec_tgl_running h).trans (exec_dis s), ?_⟩
  · rw [tick_running (s := answered { s with en := true } 0x00000001#32) rfl]
    rfl
  · obtain ⟨t, ht, hent⟩ := exec_tgl_en s
    obtain ⟨u, hu, henu⟩ := exec_tgl_en (tick^[n] t)
    exact ⟨t, u, ht, hu, by simp [henu, hent]⟩

/-! ## A halt between two Ticks -/

/-- A Tick neither reads nor writes the response port (41_dds_engine.md R90). -/
theorem tick_answered (s : State) (w : Word) : tick (answered s w) = answered (tick s) w := by
  cases h : s.en with
  | false => rw [tick_halted h, tick_halted (s := answered s w) h]
  | true =>
    rw [tick_running h, tick_running (s := answered s w) h]
    rfl

/-- DIS and then EN leave a Running engine as it was, with two more responses (R126, R127). -/
theorem halt_and_resume {s : State} (h : s.en = true) (v w : Word) :
    answered { answered { s with en := false } v with en := true } w = answered (answered s v) w := by
  cases s
  cases h
  rfl

/-- Settles O25: the muted Ticks are the identity, and the Tick after EN is the one that was due, passing over the two
responses. -/
theorem haltLosesNoSample : Obligations.HaltLosesNoSample := by
  intro s k m h
  have hrun : (tick^[k] s).en = true := (iterate_tick_en s k).trans h
  refine ⟨_, _, exec_dis _, exec_en _, ?_⟩
  rw [iterate_tick_halted rfl m, halt_and_resume hrun, tick_answered, tick_answered, Function.iterate_succ_apply']
  exact ⟨rfl, rfl, rfl⟩

/-! ## The silence of the Halted engine -/

/-- A run of events that answers has answered its first event (00_scope.md R17). -/
theorem runEvents_cons {e : Event} {es : List Event} {s t : State} (h : runEvents (e :: es) s = .next t) :
    ∃ u, applyEvent e s = .next u ∧ runEvents es u = .next t := by
  rw [runEvents] at h
  cases ha : applyEvent e s with
  | next u => exact ⟨u, rfl, by simpa [ha] using h⟩
  | fault r => simp [ha, andThen] at h
  | refused r => simp [ha, andThen] at h

/-- Only EN and TGL leave the Halted state (R125). -/
theorem gateAfter_halted {d : Except IllReason Instr} (hen : d ≠ .ok .en) (htgl : d ≠ .ok .tgl) :
    gateAfter false d = false := by
  cases d with
  | error r => rfl
  | ok i =>
    cases i with
    | en => exact absurd rfl hen
    | tgl => exact absurd rfl htgl
    | _ => rfl

/-- One event from a Halted state, short of Reset, EN and TGL, emits nothing and leaves the engine Halted (R128). -/
theorem applyEvent_halted {e : Event} {s t : State} (hs : s.en = false) (h : applyEvent e s = .next t)
    (hreset : e ≠ .reset) (hcmd : ∀ w, e = .cmd w → decode w ≠ .ok .en ∧ decode w ≠ .ok .tgl) :
    t.trace = s.trace ∧ t.out = s.out ∧ t.en = false ∧
    ((∀ w, e = .cmd w → decode w ≠ .ok .rstph) → t.phase = s.phase) := by
  cases e with
  | reset => exact absurd rfl hreset
  | tick =>
    rw [applyEvent, tick_halted hs] at h
    cases h
    exact ⟨rfl, rfl, hs, fun _ => rfl⟩
  | cmd w =>
    have hpart : commandPart (presentPins w) s = .next t := h
    obtain ⟨hen, htgl⟩ := hcmd w rfl
    obtain ⟨hout, htrace⟩ := commandPart_out_trace hpart
    have hgate : t.en = gateAfter s.en (decode w) := commandPart_en hpart
    refine ⟨htrace, hout, by rw [hgate, hs, gateAfter_halted hen htgl], fun hrstph => ?_⟩
    rw [commandPart_phase hpart, if_neg fun hp => hrstph w rfl hp.2]

/-- Settles O26, by induction on the run of events. -/
theorem mutedEngineStaysSilent : Obligations.MutedEngineStaysSilent := by
  intro es
  induction es with
  | nil =>
    intro s t hs h _ _
    cases h
    exact ⟨rfl, rfl, hs, fun _ => rfl⟩
  | cons e es ih =>
    intro s t hs h hreset hcmd
    obtain ⟨u, hu, ht⟩ := runEvents_cons h
    obtain ⟨hne, hreset'⟩ := List.ne_and_not_mem_of_not_mem_cons hreset
    obtain ⟨htrace, hout, hen, hphase⟩ :=
      applyEvent_halted hs hu hne.symm fun w hw => hcmd w (hw ▸ List.mem_cons_self)
    obtain ⟨htrace', hout', hen', hphase'⟩ := ih u t hen ht hreset' fun w hw => hcmd w (List.mem_cons_of_mem e hw)
    refine ⟨htrace'.trans htrace, hout'.trans hout, hen', fun hrstph => ?_⟩
    exact (hphase' fun w hw => hrstph w (List.mem_cons_of_mem e hw)).trans
      (hphase fun w hw => hrstph w (hw ▸ List.mem_cons_self))

end Sys2Proof.Machine
end

section
/-! The system (44_system.md R140 to R143): every word completes with one response and at most one register written, its
effect is the function of R143, and what NOP, the read-backs and the illegal words answer. -/

namespace Sys2Proof.Machine

/-! ## One register at most -/

/-- `u` is `s` with one of PHASE, STEP, WSEL and EN written (R142 item 4). -/
inductive OneRegisterWritten (s : State) : State → Prop where
  | phase (p : Word24) : OneRegisterWritten s { s with phase := p }
  | step (v : Word24) : OneRegisterWritten s { s with step := v }
  | wsel (k : WaveKind) : OneRegisterWritten s { s with wsel := k }
  | en (e : Bool) : OneRegisterWritten s { s with en := e }

/-- Writing back what PHASE holds is writing nothing. -/
theorem OneRegisterWritten.refl (s : State) : OneRegisterWritten s s := .phase s.phase

/-- The effect of a command is on one register at most (10_state.md R33). -/
theorem CommandEffect.oneRegisterWritten {s u : State} {i : Instr} {code : RspCode} {data : Word24}
    (h : CommandEffect s i code data u) : OneRegisterWritten s u := by
  cases h with
  | nothing => exact .refl s
  | freqError => exact .refl s
  | kindError => exact .refl s
  | setStep hz _ => exact .step _
  | setWsel n k _ => exact .wsel k
  | setEn _ e _ => exact .en e
  | restart => exact .phase _

/-- Any word is answered, after a write to one register at most (R142 items 1 to 4). -/
theorem acceptCommand_writes_one_register (w : Word) (s : State) :
    ∃ u word, acceptCommand w s = .next (answered u word) ∧ OneRegisterWritten s u := by
  obtain ⟨code, data, u, ha, ⟨i, -, -, he⟩ | ⟨-, -, -, rfl⟩⟩ := acceptCommand_effect w s
  · exact ⟨u, rspOf code data, ha, he.oneRegisterWritten⟩
  · exact ⟨u, rspOf code data, ha, .refl u⟩

/-- Settles O16: whichever register is written, the other three stand. -/
theorem everyWordCompletesWritingOneRegister : Obligations.EveryWordCompletesWritingOneRegister := by
  intro w s
  obtain ⟨u, word, ha, hu⟩ := acceptCommand_writes_one_register w s
  refine ⟨_, ha, ?_⟩
  cases hu with
  | phase p => exact ⟨⟨s.step, s.en, s.wsel, p, rfl⟩, .inl ⟨rfl, rfl, rfl⟩⟩
  | step v => exact ⟨⟨v, s.en, s.wsel, s.phase, rfl⟩, .inr (.inl ⟨rfl, rfl, rfl⟩)⟩
  | wsel k => exact ⟨⟨s.step, s.en, k, s.phase, rfl⟩, .inr (.inr (.inl ⟨rfl, rfl, rfl⟩))⟩
  | en e => exact ⟨⟨s.step, e, s.wsel, s.phase, rfl⟩, .inr (.inr (.inr ⟨rfl, rfl, rfl⟩))⟩

/-! ## The one-function semantics -/

/-- The registers and the response a word leaves are those of Exec (R143). -/
theorem acceptCommand_regs_rspWord {w : Word} {s t : State} (h : acceptCommand w s = .next t) :
    (t.regs, t.rspWord) = refExec s.cfg.val s.regs w := by
  rw [acceptCommand_eq_refExec, Host.Outcome.next.injEq] at h
  subst h
  rfl

/-- Settles O17: Exec is a function of the configuration, the registers and the word. -/
theorem commandsDependOnRegistersOnly : Obligations.CommandsDependOnRegistersOnly := by
  intro w s s' t t' hcfg hregs ht ht'
  have heq : (t.regs, t.rspWord) = (t'.regs, t'.rspWord) := by
    rw [acceptCommand_regs_rspWord ht, acceptCommand_regs_rspWord ht', hcfg, hregs]
  exact Prod.mk.inj heq

/-- The registers and the sample of a Tick are those of TickStep (R143). -/
theorem tick_eq_refTick (s : State) :
    (tick s).regs = (refTick s.cfg.val s.regs).1 ∧
    (tick s).trace = s.trace ++ (refTick s.cfg.val s.regs).2.toList := by
  cases h : s.en with
  | false => simp [tick_halted h, refTick, State.regs, h]
  | true =>
    have hsum : (s.phase.toNat + s.step.toNat) % 2 ^ 24 = (s.phase + s.step).toNat := (BitVec.toNat_add ..).symm
    simp only [refTick, State.regs, h, if_true, hsum, BitVec.ofNat_toNat, BitVec.setWidth_eq, tick_phase_running h,
      tick_out_running h, tick_trace_running h, tick_step, tick_wsel, tick_en, Option.toList_some, and_self]

/-- Settles O18: Exec, TickStep and ResetState, each by its lemma. -/
theorem modelIsTheWholeSemantics : Obligations.ModelIsTheWholeSemantics := by
  refine ⟨fun w s => ?_, tick_eq_refTick, fun _ => rfl⟩
  obtain ⟨u, word, ha, -⟩ := acceptCommand_writes_one_register w s
  exact ⟨_, ha, acceptCommand_regs_rspWord ha⟩

/-! ## NOP, the read-backs and the illegal words -/

/-- The response OK with a register of 24 bits is the number it holds (30_encoding.md R64). -/
theorem respond_ok_toNat (d : Word24) (s : State) : respond .ok d s = answered s (BitVec.ofNat 32 d.toNat) := by
  simpa using respond_ok_ofNat d.isLt s

/-- EN in a response is 1 or 0 (43_output_gate.md R130). -/
theorem respond_ok_enData (e : Bool) (s : State) :
    respond .ok (enData e) s = answered s (if e then 0x00000001#32 else 0x00000000#32) := by
  cases e <;> rfl

/-- RDW answers the number of the selected kind (40_waveform_table.md R82). -/
theorem exec_rdw (s : State) : exec .rdw s = .next (answered s (BitVec.ofNat 32 (kindNumber s.wsel))) :=
  congrArg Host.Outcome.next (respond_ok_ofNat ((kindNumber_lt s.wsel).trans (by decide)) s)

/-- RDOUT answers the sample in OUT, zero-extended (41_dds_engine.md R93). -/
theorem exec_rdout (s : State) : exec .rdout s = .next (answered s (BitVec.ofNat 32 s.out.toNat)) := by
  have hdata : (outData s.out).toNat = s.out.toNat := BitVec.toNat_setWidth_of_le (by decide)
  rw [← hdata]
  exact congrArg Host.Outcome.next (respond_ok_toNat (outData s.out) s)

/-- Settles O13: the six answers. -/
theorem readBacksAnswerAndWriteNothing : Obligations.ReadBacksAnswerAndWriteNothing := by
  refine fun s => ⟨rfl, congrArg Host.Outcome.next (respond_ok_enData s.en s), rfl,
    congrArg Host.Outcome.next (respond_ok_toNat s.step s), congrArg Host.Outcome.next (respond_ok_toNat s.phase s),
    fun p hp hwsel => ?_, exec_rdout s⟩
  rw [kindNumber_of_mem hp, ← hwsel]
  exact exec_rdw s

/-- Settles O35: the command's half of the edge answers the illegal word, and the prescaler's half goes on from there. -/
theorem edgeAnswersIllegalWords : Obligations.EdgeAnswersIllegalWords := by
  intro s p ps r hin hr hv hd
  have hpins : pinsNow s = p := by simp [pinsNow, hin]
  have hpop : popInputs s = { s with inputs := ps } := by simp [popInputs, hin]
  subst hpins
  have hill : ∀ i, decode (pinsNow s).cmdWord ≠ .ok i := by simp [hd]
  rw [step_command hr hv, acceptCommand_of_not_ok hill, andThen_next, tickPart_eq_afterPrescaler, hpop]

end Sys2Proof.Machine
end

section
/-! Exceptions (60_exceptions.md R151, R152, R167): which response code each word draws, that an error writes nothing, and
that nothing stops the machine. -/

namespace Sys2Proof.Machine

/-! ## The response to a word -/

/-- A word on the command port is answered ILL, or ends a command's effect with its response (44_system.md R141, R142). -/
theorem acceptCommand_cases {w : Word} {s t : State} (h : acceptCommand w s = .next t) :
    (∃ r, decode w = .error r ∧ t = respond .errIllegalCmd 0#24 s) ∨
    (∃ i code data u, decode w = .ok i ∧ CommandEffect s i code data u ∧ t = respond code data u) := by
  have hpart : commandPart (presentPins w) s = .next t := h
  rcases commandPart_cases hpart with ⟨hv, -⟩ | ⟨-, hill⟩ | ⟨-, hcmd⟩
  · exact absurd hv (by simp [presentPins])
  · exact .inl hill
  · exact .inr hcmd

/-! ## An error writes nothing -/

/-- An error response over an unchanged state has data 0 (30_encoding.md R65). -/
theorem respond_zero_eq_answered (c : RspCode) (s : State) :
    respond c 0#24 s = answered s (respond c 0#24 s).rspWord ∧ (respond c 0#24 s).rspWord.toNat % 2 ^ 24 = 0 :=
  ⟨rfl, rspOf_data c 0#24⟩

/-- Settles O14: ILL leaves the state alone, and so does every command's effect with a code other than OK. -/
theorem errorsWriteNothing : Obligations.ErrorsWriteNothing := by
  intro w s t h hcode
  rcases acceptCommand_cases h with ⟨-, -, rfl⟩ | ⟨i, code, data, u, -, he, rfl⟩
  · exact respond_zero_eq_answered .errIllegalCmd s
  · rw [respond_rspWord, rspOf_code, ne_eq, codeBits_eq_zero] at hcode
    obtain ⟨rfl, rfl⟩ := he.error hcode
    exact respond_zero_eq_answered code u

/-! ## The causes of the codes -/

/-- The table of R151: the response code of a word, by what the word decodes to. -/
def codeFor (c : Config) : Except IllReason Instr → RspCode
  | .error _ => .errIllegalCmd
  | .ok (.setf hz) => if hz < c.minFreq ∨ c.maxFreq < hz then .errFreqRange else .ok
  | .ok (.selw k) => if 4 < k then .errWaveKind else .ok
  | .ok _ => .ok

/-- A command's effect draws the code of R151. -/
theorem CommandEffect.code_eq {s u : State} {i : Instr} {code : RspCode} {data : Word24}
    (h : CommandEffect s i code data u) : code = codeFor s.cfg.val (.ok i) := by
  cases h with
  | nothing _ _ ha => rcases ha with rfl | rfl | rfl | rfl | rfl | rfl <;> rfl
  | setEn _ _ he => rcases he with ⟨rfl, -⟩ | ⟨rfl, -⟩ | ⟨rfl, -⟩ <;> rfl
  | restart => rfl
  | setStep hz hf =>
    have hrange := freqInRange_iff.mp hf
    exact (if_neg (by omega)).symm
  | freqError hz hf =>
    have hrange := mt freqInRange_iff.mpr (Bool.eq_false_iff.mp hf)
    exact (if_pos (by omega)).symm
  | setWsel n k hk =>
    have hle : ¬ 4 < n := fun hn => by simp [kindOfNumber_eq_none.mpr hn] at hk
    exact (if_neg hle).symm
  | kindError n hk => exact (if_pos (kindOfNumber_eq_none.mp hk)).symm

/-- The code field of the response to a word is that of R151. -/
theorem acceptCommand_code {w : Word} {s t : State} (h : acceptCommand w s = .next t) :
    t.rspWord.toNat / 2 ^ 24 = (codeBits (codeFor s.cfg.val (decode w))).toNat := by
  rcases acceptCommand_cases h with ⟨r, hd, rfl⟩ | ⟨i, code, data, u, hd, he, rfl⟩
  · rw [respond_rspWord, rspOf_code, hd, codeFor]
  · rw [respond_rspWord, rspOf_code, hd, ← he.code_eq]

/-- The codes are numbered apart (30_encoding.md R65). -/
theorem codeBits_toNat_inj {c c' : RspCode} : (codeBits c).toNat = (codeBits c').toNat ↔ c = c' := by
  cases c <;> cases c' <;> decide

/-- No code is numbered above 3 (30_encoding.md R65). -/
theorem codeBits_toNat_le (c : RspCode) : (codeBits c).toNat ≤ 3 := by
  cases c <;> decide

section causes
variable {c : Config} {d : Except IllReason Instr}

/-- The cause of ERR_FREQ_RANGE (R151). -/
theorem codeFor_eq_errFreqRange :
    codeFor c d = .errFreqRange ↔ ∃ hz, d = .ok (.setf hz) ∧ (hz < c.minFreq ∨ c.maxFreq < hz) := by
  fun_cases codeFor c d <;> simp_all

/-- The cause of ERR_WAVE_KIND (R151). -/
theorem codeFor_eq_errWaveKind : codeFor c d = .errWaveKind ↔ ∃ k, d = .ok (.selw k) ∧ 4 < k := by
  fun_cases codeFor c d <;> simp_all

/-- The cause of ERR_ILLEGAL_CMD (R151). -/
theorem codeFor_eq_errIllegalCmd : codeFor c d = .errIllegalCmd ↔ ∃ r, d = .error r := by
  fun_cases codeFor c d <;> simp_all

end causes

/-- Settles O15: the code field is the number of the code of R151, which names each code's cause. -/
theorem errorsHaveTheirCauses : Obligations.ErrorsHaveTheirCauses := by
  intro w s t h
  rw [acceptCommand_code h]
  exact ⟨(codeBits_toNat_inj (c' := .errFreqRange)).trans codeFor_eq_errFreqRange,
    (codeBits_toNat_inj (c' := .errWaveKind)).trans codeFor_eq_errWaveKind,
    (codeBits_toNat_inj (c' := .errIllegalCmd)).trans codeFor_eq_errIllegalCmd, codeBits_toNat_le _⟩

/-! ## Nothing stops the machine -/

/-- No event stops the machine (R167). -/
theorem applyEvent_total (e : Event) (s : State) : ∃ t, applyEvent e s = .next t := by
  cases e with
  | reset => exact ⟨doReset s, rfl⟩
  | tick => exact ⟨tick s, rfl⟩
  | cmd w =>
    obtain ⟨code, data, u, ha, -⟩ := acceptCommand_effect w s
    exact ⟨respond code data u, ha⟩

/-- No number of edges stops the machine, from any state (R167). -/
theorem neverStops (s : State) : NeverStops s := by
  intro n
  induction n generalizing s with
  | zero => exact ⟨s, rfl⟩
  | succ n ih =>
    obtain ⟨u, hu⟩ := step_total s
    rw [run_succ hu]
    exact ih u

/-- Settles O38: one event, and any number of edges. -/
theorem nothingEverStops : Obligations.NothingEverStops :=
  ⟨applyEvent_total, neverStops⟩

end Sys2Proof.Machine
end

section
/-! The reset edge (70_reset_and_hazards.md R175): an edge on which `rst` outranks the command port and the prescaler. -/

namespace Sys2Proof.Machine

/-- Settles O33: the pins carry p, so this edge is the reset edge, which pops p and applies the Reset event. -/
theorem resetEdgeDoesNothingElse : Obligations.ResetEdgeDoesNothingElse := by
  intro s p ps hin hrst
  have hpins : (pinsNow s).rst = true := by simpa [pinsNow, hin] using hrst
  have hpop : popInputs s = { s with inputs := ps } := by simp [popInputs, hin]
  rw [step_reset hpins, hpop]

end Sys2Proof.Machine
end
